-- ==== Sys2Proof/Word.lean ====
section
/-! DEFINITION. The widths the spec works in (00_scope.md R8, R9). Every value of the block is unsigned. -/

namespace Sys2Proof

/-- A wire symbol or working byte: 8 bits (00_scope.md R8 `BYTE`). -/
abbrev Byte := BitVec 8

/-- The value a tagged byte carries, and every register that holds one: 7 bits (00_scope.md R8 `TAG_W`). -/
abbrev Value := BitVec 7

/-- A count of `TICK` events: 16 bits (10_state.md R20). -/
abbrev Ticks := BitVec 16

end Sys2Proof
end

