-- ==== Sys2Proof/Config.lean ====
section
/-! DEFINITION. The implementation parameters of 00_scope.md R8. All but `tickPeriod` are fixed by the spec. -/

namespace Sys2Proof

/-- `SENTINEL`: the reserved byte, escape in data mode and frame opener (R8). -/
abbrev Config.sentinel : Byte := 0xFF

/-- `SEED`: the seed of every checksum fold (R8, 41_checksum_and_tag.md R100). -/
abbrev Config.seed : Byte := 0xFF

/-- `MAX_LEN`: the largest declared info length (R8). -/
abbrev Config.maxLen : Nat := 127

/-- `INFO_CAP`: the number of cells of the info buffer (R8, 20_memory.md R50). -/
abbrev Config.infoCap : Nat := 127

/-- `MAX_CODE_ENCODABLE`: the largest command code a frame can carry to the receiver (R8, 30_encoding.md R76). -/
abbrev Config.maxCodeEncodable : Nat := 126

/-- `TIMEOUT_TICKS`: the value of `timeout_ticks` after `RESET` (R8, 10_state.md R28). -/
abbrev Config.timeoutDefault : Ticks := 2000

/-- `TICK_PERIOD`: the real time between two `TICK` events, in any unit; the spec leaves it OPEN (R8, D4), so it
has no body and no proof can use a value of it. No rule's effect depends on it (44_timer_and_control.md R177). -/
opaque Config.tickPeriod : Nat

/-- The real duration of `n` ticks, in the unit of `tickPeriod` (44_timer_and_control.md R177). -/
abbrev Config.realTime (n : Nat) : Nat := n * Config.tickPeriod

end Sys2Proof
end

