-- ==== Sys2Proof/Syntax.lean ====
section
/-! DEFINITION. The operations of the block (one constructor of `Instr` per row of spec/opcode_table.json) and the input
events the environment presents (30_encoding.md R84). -/

namespace Sys2Proof

/-- The rows of the operation map (30_encoding.md R87), in the table's order. An RX row carries the received byte except where
the row fixes it to the sentinel. -/
inductive Instr where
  /-- `RX_DATA_ESC`: the sentinel in `Data` (R122). -/
  | rxDataEsc
  /-- `RX_DATA_BYTE`: any other byte in `Data` (R123). -/
  | rxDataByte (b : Byte)
  /-- `RX_ESC_LITERAL`: the sentinel in `Escaping` (R124). -/
  | rxEscLiteral
  /-- `RX_ESC_CMD`: any other byte in `Escaping`, the frame's code byte (R125). -/
  | rxEscCmd (b : Byte)
  /-- `RX_CODE`: an odd byte in `CommandCode` (R126). -/
  | rxCode (b : Byte)
  /-- `RX_CODE_BADTAG`: an even byte in `CommandCode` (R127). -/
  | rxCodeBadtag (b : Byte)
  /-- `RX_LEN`: an odd byte in `CommandLength` (R128). -/
  | rxLen (b : Byte)
  /-- `RX_LEN_BADTAG`: an even byte in `CommandLength` (R129). -/
  | rxLenBadtag (b : Byte)
  /-- `RX_INFO`: any byte in `CommandInfo` (R130). -/
  | rxInfo (b : Byte)
  /-- `RX_CHK_MATCH`: a byte equal to `chk` in `CommandChecksum` (R131). -/
  | rxChkMatch (b : Byte)
  /-- `RX_CHK_MISMATCH`: a byte other than `chk` in `CommandChecksum` (R132). -/
  | rxChkMismatch (b : Byte)
  /-- `TICK`: one unit of time passes (R172). -/
  | tick
  /-- `PARSER_RESET`: the parser returns to its initial state, the configuration is kept (R175). -/
  | parserReset
  /-- `RESET`: the whole block is reset (R176). -/
  | reset
  /-- `CFG_TIMEOUT(v)`: set the timeout period (R174). -/
  | cfgTimeout (v : Ticks)
  /-- `TX_DATA(bytes)`: byte-stuff a data buffer (R150). -/
  | txData (bytes : List Byte)
  /-- `TX_CMD(payload, corrupt)`: frame a command payload (R152). -/
  | txCmd (payload : List Byte) (corrupt : Bool)
  /-- `FOLD(seed, bytes)`: the checksum accumulator as a pure function (R100). -/
  | fold (seed : Byte) (bytes : List Byte)
  /-- `TAG_DECODE(c)`: the tagged-byte decoder as a pure function (R103). -/
  | tagDecode (c : Byte)
  /-- `TAG_ENCODE(v)`: the tagged-byte encoder as a pure function; `v` is any natural number, 0..127 is its domain (R104). -/
  | tagEncode (v : Nat)
deriving DecidableEq, Repr

/-- The input events of 30_encoding.md R84. `reserved k` is an event of the reserved kind `7 + k` (kinds 7 to 15, R81). -/
inductive Event where
  | rx (b : Byte)
  | tick
  | parserReset
  | reset
  | cfgTimeout (v : Ticks)
  | txData (bytes : List Byte)
  | txCmd (payload : List Byte) (corrupt : Bool)
  | reserved (k : Fin 9)
deriving DecidableEq, Repr

end Sys2Proof
end

