-- ==== Sys2Proof/WellFormed.lean ====
section
/-! DEFINITION. Which terms of `Instr` are instructions: each row's condition on its own operands (30_encoding.md R79, R104).
The condition of rows 10 and 11 is on `chk` as well, so it stands in Decode.lean. -/

namespace Sys2Proof

/-- The tag bit of a structural byte, `b[0]` (30_encoding.md R70). -/
abbrev tagBit (b : Byte) : Bool := b.getLsbD 0

/-- The operand conditions of 30_encoding.md R79 (rows 2 and 4: not the sentinel; rows 5 and 7: tag bit 1; rows 6 and 8: tag
bit 0) and of 41_checksum_and_tag.md R104 (`v` in 0..127). -/
def Instr.wf : Instr → Bool
  | .rxDataByte b => b != Config.sentinel
  | .rxEscCmd b => b != Config.sentinel
  | .rxCode b => tagBit b
  | .rxCodeBadtag b => !tagBit b
  | .rxLen b => tagBit b
  | .rxLenBadtag b => !tagBit b
  | .tagEncode v => decide (v < 128)
  | .rxDataEsc | .rxEscLiteral | .rxInfo _ | .rxChkMatch _ | .rxChkMismatch _ => true
  | .tick | .parserReset | .reset | .cfgTimeout _ | .txData _ | .txCmd _ _ => true
  | .fold _ _ | .tagDecode _ => true

end Sys2Proof
end

