-- ==== Sys2Proof/Decode.lean ====
section
/-! DEFINITION. The decoder and the encoder: the 11-bit decode key of the receive FSM (30_encoding.md R79), the 4-bit event kinds
(R84), and the words of spec/opcode_table.json. -/

namespace Sys2Proof

/-- Why the decoder reads no instruction. -/
inductive Reject where
  /-- A key whose state code is 6 or 7: "Keys with `st` = 6 or 7 match no row" (R79). -/
  | reservedState (code : BitVec 3)
  /-- An event of a reserved kind, 7 to 15 (R81, R84). -/
  | reservedKind (kind : BitVec 4)
  /-- Kind 0 (`RX`) presented as a bare kind: an `RX` event is decoded with the state, by its key (R79, R84). -/
  | rxWithoutKey
deriving DecidableEq, Repr

/-- What the decoder answers. -/
inductive Decoded where
  | instr (i : Instr)
  | rejected (r : Reject)
deriving DecidableEq, Repr

/-- The condition column of the table of R79. -/
inductive RowCond where
  | always
  | chkEqual
  | chkDiffers
deriving DecidableEq, Repr

/-- Whether a row's condition holds for the accumulator `chk` and the received byte `b` (R79). -/
def RowCond.holds (chk b : Byte) : RowCond → Bool
  | .always => true
  | .chkEqual => b == chk
  | .chkDiffers => b != chk

/-- One row of the table of R79: `pattern` is its `match` column, `build` its mnemonic with the received byte. -/
structure RxRow where
  pattern : BitVec 11
  mask : BitVec 11
  cond : RowCond
  build : Byte → Instr

/-- The received byte of a key, bits [7:0] (R79). -/
def keyByte (key : BitVec 11) : Byte := key.extractLsb' 0 8

/-- The state code of a key, bits [10:8] (R79). -/
def keyState (key : BitVec 11) : BitVec 3 := key.extractLsb' 8 3

/-- `key = {st[2:0], b[7:0]}` (R79). -/
def rxKey (st : BitVec 3) (b : Byte) : BitVec 11 := st ++ b

/-- Rows 1 to 4 of R79: data mode. -/
def dataRows : List RxRow :=
  [ ⟨0x0FF, 0x7FF, .always, fun _ => .rxDataEsc⟩,
    ⟨0x000, 0x700, .always, .rxDataByte⟩,
    ⟨0x1FF, 0x7FF, .always, fun _ => .rxEscLiteral⟩,
    ⟨0x100, 0x700, .always, .rxEscCmd⟩ ]

/-- Rows 5 to 11 of R79: command parsing. -/
def commandRows : List RxRow :=
  [ ⟨0x201, 0x701, .always, .rxCode⟩,
    ⟨0x200, 0x701, .always, .rxCodeBadtag⟩,
    ⟨0x301, 0x701, .always, .rxLen⟩,
    ⟨0x300, 0x701, .always, .rxLenBadtag⟩,
    ⟨0x400, 0x700, .always, .rxInfo⟩,
    ⟨0x500, 0x700, .chkEqual, .rxChkMatch⟩,
    ⟨0x500, 0x700, .chkDiffers, .rxChkMismatch⟩ ]

/-- The table of R79 in its order. -/
def rxRows : List RxRow := dataRows ++ commandRows

/-- `(key & mask) == match` and the row's condition (R79). -/
def RxRow.selects (chk : Byte) (key : BitVec 11) (r : RxRow) : Bool :=
  key &&& r.mask == r.pattern && r.cond.holds chk (keyByte key)

/-- "Rows are tried in the order below and the first whose `(key & mask) == match` and whose condition holds selects the
rule" (R79); a key that matches no row is refused. -/
def decodeKey (chk : Byte) (key : BitVec 11) : Decoded :=
  match rxRows.find? (RxRow.selects chk key) with
  | some r => .instr (r.build (keyByte key))
  | none => .rejected (.reservedState (keyState key))

/-- The operands beside an event's kind (R84); a kind reads only its own. -/
structure Operands where
  ticks : Ticks := 0
  bytes : List Byte := []
  corrupt : Bool := false
deriving DecidableEq, Repr

/-- What a row of the table encodes: an RX row's 11-bit key, or an EV row's 4-bit kind with its operands (R87). -/
inductive Code where
  | key (k : BitVec 11)
  | event (kind : BitVec 4) (o : Operands)
deriving DecidableEq, Repr

/-- The event kinds of R84: 1 to 6 are the EV rows, 7 to 15 are reserved and refused. -/
def decodeKind (kind : BitVec 4) (o : Operands) : Decoded :=
  match kind.toNat with
  | 0 => .rejected .rxWithoutKey
  | 1 => .instr .tick
  | 2 => .instr .parserReset
  | 3 => .instr .reset
  | 4 => .instr (.cfgTimeout o.ticks)
  | 5 => .instr (.txData o.bytes)
  | 6 => .instr (.txCmd o.bytes o.corrupt)
  | _ => .rejected (.reservedKind kind)

/-- The decoder, total on every code; `chk` decides between rows 10 and 11 (R79). -/
def decode (chk : Byte) : Code → Decoded
  | .key k => decodeKey chk k
  | .event kind o => decodeKind kind o

/-- The kind of an event (R84). -/
def Event.kind : Event → BitVec 4
  | .rx _ => 0
  | .tick => 1
  | .parserReset => 2
  | .reset => 3
  | .cfgTimeout _ => 4
  | .txData _ => 5
  | .txCmd _ _ => 6
  | .reserved k => BitVec.ofNat 4 (7 + k.val)

/-- The operands of an event other than `RX` (R84). -/
def Event.operands : Event → Operands
  | .cfgTimeout v => { ticks := v }
  | .txData bytes => { bytes := bytes }
  | .txCmd payload corrupt => { bytes := payload, corrupt := corrupt }
  | .rx _ | .tick | .parserReset | .reset | .reserved _ => {}

/-- The event of a kind with every operand bit zero (`CFG_TIMEOUT(0)`, `TX_DATA([])`, `TX_CMD([], 0)`, `RX(0x00)`). -/
def Event.ofKind (kind : BitVec 4) : Event :=
  match kind.toNat with
  | 0 => .rx 0
  | 1 => .tick
  | 2 => .parserReset
  | 3 => .reset
  | 4 => .cfgTimeout 0
  | 5 => .txData []
  | 6 => .txCmd [] false
  | n => .reserved (Fin.ofNat 9 (n - 7))

/-- The code an event presents to the decoder when the state register has the code `st`: an `RX` its key, any other event its
kind and operands (R79, R84). -/
def Code.ofEvent (st : BitVec 3) : Event → Code
  | .rx b => .key (rxKey st b)
  | e => .event e.kind e.operands

/-- Decoding one input event in a state whose state register has the code `st` and whose accumulator is `chk` (R79, R84). -/
def decodeEvent (st : BitVec 3) (chk : Byte) (e : Event) : Decoded :=
  decode chk (Code.ofEvent st e)

/-- The encoder: the `encoding` column of the table with the operand bits in place; a function of format FN "has no decodable
bits" (R85). -/
def encode : Instr → Option Code
  | .rxDataEsc => some (.key (rxKey 0 Config.sentinel))
  | .rxDataByte b => some (.key (rxKey 0 b))
  | .rxEscLiteral => some (.key (rxKey 1 Config.sentinel))
  | .rxEscCmd b => some (.key (rxKey 1 b))
  | .rxCode b => some (.key (rxKey 2 b))
  | .rxCodeBadtag b => some (.key (rxKey 2 b))
  | .rxLen b => some (.key (rxKey 3 b))
  | .rxLenBadtag b => some (.key (rxKey 3 b))
  | .rxInfo b => some (.key (rxKey 4 b))
  | .rxChkMatch b => some (.key (rxKey 5 b))
  | .rxChkMismatch b => some (.key (rxKey 5 b))
  | .tick => some (.event 1 {})
  | .parserReset => some (.event 2 {})
  | .reset => some (.event 3 {})
  | .cfgTimeout v => some (.event 4 { ticks := v })
  | .txData bytes => some (.event 5 { bytes := bytes })
  | .txCmd payload corrupt => some (.event 6 { bytes := payload, corrupt := corrupt })
  | .fold _ _ | .tagDecode _ | .tagEncode _ => none

/-- The condition column of R79 for an instruction: rows 10 and 11 are chosen by the accumulator `chk`. -/
def Instr.selectedBy (chk : Byte) : Instr → Bool
  | .rxChkMatch b => b == chk
  | .rxChkMismatch b => b != chk
  | .rxDataEsc | .rxDataByte _ | .rxEscLiteral | .rxEscCmd _ | .rxCode _ | .rxCodeBadtag _ => true
  | .rxLen _ | .rxLenBadtag _ | .rxInfo _ => true
  | .tick | .parserReset | .reset | .cfgTimeout _ | .txData _ | .txCmd _ _ => true
  | .fold _ _ | .tagDecode _ | .tagEncode _ => true

/-- The code that the `nbits` bits `w` of a table row stand for: a row of format EV has 4 bits (given as one byte), a row of
format RX has 11 (given as two); bits that the row does not have must be 0. -/
def tableCode (nbits w : Nat) : Option Code :=
  if nbits = 0 then none
  else if nbits ≤ 8 then (if w < 16 then some (.event (BitVec.ofNat 4 w) {}) else none)
  else if nbits ≤ 16 then (if w < 2048 then some (.key (BitVec.ofNat 11 w)) else none)
  else none

/-- The instruction the decoder reads from a table row's bits, with `chk` at its reset value 0xFF (10_state.md R38), which
decides between rows 10 and 11. -/
def decodeTableWord (nbits w : Nat) : Option Instr :=
  match (tableCode nbits w).map (decode Config.seed) with
  | some (.instr i) => some i
  | _ => none

end Sys2Proof
end

