-- ==== Sys2Proof/Machine/Operands.lean ====
section
/-! DEFINITION. The combinational units: operand assembly of structural bytes, the checksum accumulator, the tagged-byte codec
(41_checksum_and_tag.md) and the two encoders (43_frame_codec.md). All are pure and total. -/

namespace Sys2Proof.Machine

/-- The value field of a structural byte, `b[7:1]` (30_encoding.md R70, R71). -/
def tagValue (b : Byte) : Value := b.extractLsb' 1 7

/-- The tagged byte of a 7-bit value, `{v, 1}` = `(v << 1) | 1` (30_encoding.md R70, R73). -/
def tagByte (v : Value) : Byte := v ++ 1#1

/-- `FOLD(seed, bytes)` (41_checksum_and_tag.md R100). -/
def fold (seed : Byte) (bytes : List Byte) : Byte := bytes.foldl (fun acc b => acc ^^^ b) seed

/-- `TAG_DECODE(c)`: `none` is `(false, -)`, `some v` is `(true, v)` with `v = zext_8(c[7:1])` (41_checksum_and_tag.md R103). -/
def tagDecode (c : Byte) : Option Byte := if tagBit c then some ((tagValue c).setWidth 8) else none

/-- `TAG_ENCODE(v)`: `((v << 1) | 1)[7:0]` for `v` in 0..127, `none` (refused) for `v` >= 128 (41_checksum_and_tag.md R104). -/
def tagEncode (v : Nat) : Option Byte := if v < 128 then some (BitVec.ofNat 8 ((v <<< 1) ||| 1)) else none

/-- `encodeData(bytes)`: each byte, the sentinel a second time (43_frame_codec.md R151). -/
def encodeData : List Byte → List Byte
  | [] => []
  | b :: bytes => if b = Config.sentinel then b :: b :: encodeData bytes else b :: encodeData bytes

/-- The checksum byte `encodeCommand` appends: the fold of the payload, all bits flipped when `corrupt` (43_frame_codec.md R152). -/
def frameChecksum (payload : List Byte) (corrupt : Bool) : Byte :=
  if corrupt then fold Config.seed payload ^^^ 0xFF else fold Config.seed payload

/-- `encodeCommand(payload, corrupt)`: `[sentinel] ++ payload ++ [checksum]` (43_frame_codec.md R152). -/
def encodeCommand (payload : List Byte) (corrupt : Bool) : List Byte :=
  [Config.sentinel] ++ payload ++ [frameChecksum payload corrupt]

end Sys2Proof.Machine
end

