-- ==== Sys2Proof/Machine/State.lean ====
section
/-! DEFINITION. The state of the block (10_state.md R20), what it emits (00_scope.md R12), why a step can stop, and the state
after reset (10_state.md R38). -/

namespace Sys2Proof.Machine

/-- The values of the state register `st` (10_state.md R21), the two reserved codes 6 and 7 included. -/
inductive Fsm where
  | data
  | escaping
  | commandCode
  | commandLength
  | commandInfo
  | commandChecksum
  | reserved6
  | reserved7
deriving DecidableEq, Repr

/-- The structural byte that a StructuralViolation names (00_scope.md R12, 60_exceptions.md R200). -/
inductive StructField where
  | code
  | length
deriving DecidableEq, Repr

/-- The three `DIAG` events (00_scope.md R12). -/
inductive Diag where
  | checksumMismatch (code infoLen : Value) (info : List Byte)
  | parseTimeout
  | structuralViolation (field : StructField) (byte : Byte)
deriving DecidableEq, Repr

/-- The output events (00_scope.md R12). -/
inductive OutEvent where
  | data (b : Byte)
  | cmd (code : Value) (info : List Byte)
  | diag (d : Diag)
  | tx (bytes : List Byte)
deriving DecidableEq, Repr

/-- The value a pure function returns (30_encoding.md R85): a byte, or `TAG_DECODE`'s `(ok, value)`, where `none` is
`(false, -)`. -/
inductive FnResult where
  | byte (b : Byte)
  | tag (r : Option Byte)
deriving DecidableEq, Repr

/-- The info buffer `info[0..126]` (20_memory.md R50, R51): index and byte pairs, indices strictly rising, no pair with the byte
0x00, which an index not listed reads as (10_state.md R38). -/
abbrev Memory := List Host.Cell

/-- Why the machine stops with a fault. -/
inductive Fault where
  /-- Raised by every RX row when `faulted` = 1: the event is `stuck`, "it has no step, no state changes and no output is
  produced" (42_stream_parser.md R120). Safe: the model stops where the block waits for a reset. -/
  | stuck
  /-- Raised by `RX_INFO` when `info_len` = 127, which no reachable state has: "a model may therefore refuse (treat as
  unreachable) any index >= 127" (20_memory.md R51). Safe: the model stops. -/
  | infoIndexOutOfRange
deriving DecidableEq, Repr

/-- Why the machine refuses. -/
inductive Refusal where
  /-- Raised by `exec` for an instruction that has no meaning yet; no arm does. Safe: the model stops. -/
  | notModelled (mnemonic : String)
  /-- Raised by delivering an `RX` event when `st` is 6 or 7: "a model should give them no step (refuse) rather than a
  meaning" (30_encoding.md R79). Safe: the model stops. -/
  | reservedState (code : BitVec 3)
  /-- Raised by delivering an event of kind 7 to 15, "which a model refuses" (30_encoding.md R81). Safe: the model stops. -/
  | reservedEventKind (kind : BitVec 4)
  /-- Raised by the decoder's answer `rxWithoutKey`, which no event gives. Safe: the model stops. -/
  | rxWithoutKey
  /-- Raised by `TAG_ENCODE` of `v` >= 128: "a model refuses `v` >= 128" (41_checksum_and_tag.md R104). Safe: the model stops. -/
  | tagEncodeOutOfRange
deriving DecidableEq, Repr

/-- The registers of 10_state.md R20, and the model's own three fields (the streams of input and output events of
00_scope.md R6, and the value the last pure function call returned). -/
structure State where
  /-- `st`, 3 bits: the FSM state register (R21). -/
  st : Fsm
  /-- `remaining`, 7 bits: info bytes still expected (R23). -/
  remaining : Value
  /-- `chk`, 8 bits: the checksum accumulator (R24). -/
  chk : Byte
  /-- `cmd_code`, 7 bits: the decoded command code (R25). -/
  cmdCode : Value
  /-- `info_len`, 7 bits: info bytes received so far (R26). -/
  infoLen : Value
  /-- `info[0..126]`: the info buffer (R26). -/
  info : Memory
  /-- `armed`, 1 bit: a timeout is pending (R27). -/
  armed : Bool
  /-- `count`, 16 bits: ticks left before expiry (R27). -/
  count : Ticks
  /-- `timeout_ticks`, 16 bits: the timeout period (R28). -/
  timeoutTicks : Ticks
  /-- `faulted`, 1 bit: the sticky StructuralViolation flag (R29). -/
  faulted : Bool
  /-- `fault_field`, 2 bits: 0 none, 1 CODE, 2 LENGTH (R29, R31). -/
  faultField : BitVec 2
  /-- `fault_byte`, 8 bits: the offending byte (R29). -/
  faultByte : Byte
  /-- MODEL's own: the input events not yet delivered, oldest first (00_scope.md R6, R7). -/
  inbox : List Event
  /-- MODEL's own: the output events emitted so far, oldest first (00_scope.md R6, R12, 20_memory.md R60). -/
  outputs : List OutEvent
  /-- MODEL's own: what the last call of a pure function returned (30_encoding.md R85). -/
  fnResult : Option FnResult
deriving DecidableEq, Repr

/-- The state after `RESET`, and at power-up (10_state.md R38, 70_reset_and_hazards.md R230). -/
def State.reset : State where
  st := .data
  remaining := 0
  chk := 0xFF
  cmdCode := 0
  infoLen := 0
  info := []
  armed := false
  count := 0
  timeoutTicks := Config.timeoutDefault
  faulted := false
  faultField := 0
  faultByte := 0x00
  inbox := []
  outputs := []
  fnResult := none

end Sys2Proof.Machine
end

