-- ==== Sys2Proof/Machine/Ops.lean ====
section
/-! DEFINITION. The named operations over the info buffer, the registers, the timer and the fault record, each written once and
used by every meaning: the pseudocode primitives of 00_scope.md R10, StructuralViolation entry (60_exceptions.md R201), the timer's
arming, cancelling and expiry (44_timer_and_control.md R170, R171, R173), code processing (42_stream_parser.md R126, R127) and the
parser reset (44_timer_and_control.md R175). -/

namespace Sys2Proof.Machine

/-- The answer of a step or a meaning (00_scope.md R11). -/
abbrev Result := Host.Outcome State Fault Refusal

/-! ## The state register -/

/-- The numeric code of a state (10_state.md R21). -/
def Fsm.code : Fsm → BitVec 3
  | .data => 0
  | .escaping => 1
  | .commandCode => 2
  | .commandLength => 3
  | .commandInfo => 4
  | .commandChecksum => 5
  | .reserved6 => 6
  | .reserved7 => 7

/-- The state of a numeric code (10_state.md R21). -/
def Fsm.ofCode (c : BitVec 3) : Fsm :=
  match c.toNat with
  | 0 => .data
  | 1 => .escaping
  | 2 => .commandCode
  | 3 => .commandLength
  | 4 => .commandInfo
  | 5 => .commandChecksum
  | 6 => .reserved6
  | _ => .reserved7

/-- Whether a frame is being parsed after its code byte: `CommandLength`, `CommandInfo` or `CommandChecksum` (10_state.md R34). -/
def Fsm.inFrame : Fsm → Bool
  | .commandLength | .commandInfo | .commandChecksum => true
  | .data | .escaping | .commandCode | .reserved6 | .reserved7 => false

/-! ## The info buffer -/

/-- `InfoRead(i)` (00_scope.md R10): an index not listed reads as 0x00 (10_state.md R38). -/
def Memory.read : Memory → Nat → Byte
  | [], _ => 0x00#8
  | (j, w) :: m, i => if i = j then w else Memory.read m i

/-- The list form of `InfoWrite(i, v)` (00_scope.md R10): the pair is put in its place, and taken out when `v` is what an unlisted
index reads as. -/
def Memory.write : Memory → Nat → Byte → Memory
  | [], i, v => if v = 0x00#8 then [] else [(i, v)]
  | (j, w) :: m, i, v =>
    if i < j then (if v = 0x00#8 then (j, w) :: m else (i, v) :: (j, w) :: m)
    else if i = j then (if v = 0x00#8 then m else (i, v) :: m)
    else (j, w) :: Memory.write m i v

/-- Indices strictly rising from `lo`, all below the capacity, no listed 0x00#8. -/
def Memory.wfFrom : Nat → Memory → Bool
  | _, [] => true
  | lo, (j, w) :: m => decide (lo ≤ j) && decide (j < Config.infoCap) && w != 0x00#8 && Memory.wfFrom (j + 1) m

/-- The canonical form of the info buffer (20_memory.md R50: indices 0..126). -/
def Memory.wf (m : Memory) : Bool := Memory.wfFrom 0 m

/-- `InfoWrite(i, v)`; `none` when `i` is no cell of the buffer (20_memory.md R51). -/
def State.infoWrite (i : Nat) (v : Byte) (s : State) : Option State :=
  if i < Config.infoCap then some { s with info := Memory.write s.info i v } else none

/-- `InfoList()` = `[InfoRead(0), ..., InfoRead(info_len - 1)]` (00_scope.md R10). -/
def State.infoList (s : State) : List Byte :=
  (List.range s.infoLen.toNat).map (Memory.read s.info)

/-! ## Primitives -/

/-- `st <- S` (00_scope.md R10). -/
def State.goto (st : Fsm) (s : State) : State := { s with st := st }

/-- `emit E` (00_scope.md R10). -/
def State.emit (e : OutEvent) (s : State) : State := { s with outputs := s.outputs ++ [e] }

/-- The value a pure function call returns (30_encoding.md R85). -/
def State.answer (r : FnResult) (s : State) : State := { s with fnResult := some r }

/-- Arming: `armed <- 1; count <- timeout_ticks` (44_timer_and_control.md R170). -/
def State.arm (s : State) : State := { s with armed := true, count := s.timeoutTicks }

/-- Cancelling: `armed <- 0; count <- 0` (44_timer_and_control.md R171). -/
def State.cancel (s : State) : State := { s with armed := false, count := 0 }

/-- An `RX` row has a step only when `faulted` = 0; otherwise the event is `stuck` (42_stream_parser.md R120). -/
def acceptRx (s : State) (r : Result) : Result := if s.faulted then .fault .stuck else r

/-! ## Taking a StructuralViolation, and leaving it -/

/-- The code of a structural field in `fault_field`: CODE 1, LENGTH 2 (60_exceptions.md R200). -/
def StructField.bits : StructField → BitVec 2
  | .code => 1
  | .length => 2

/-- `raise StructuralViolation(field, b)` (60_exceptions.md R201): the record is written, the timer cancelled, the `DIAG` emitted,
and "no other register is written in this step". -/
def State.raiseViolation (field : StructField) (b : Byte) (s : State) : State :=
  State.emit (.diag (.structuralViolation field b))
    (State.cancel { s with faulted := true, faultField := field.bits, faultByte := b })

/-- Every register but `timeout_ticks` takes its reset value (44_timer_and_control.md R175); this is the return from a
StructuralViolation (60_exceptions.md R208). -/
def State.parserReset (s : State) : State :=
  { s with
    st := .data, remaining := 0, chk := 0xFF, cmdCode := 0, infoLen := 0, info := [],
    armed := false, count := 0, faulted := false, faultField := 0, faultByte := 0x00 }

/-! ## Shared bodies of rows -/

/-- `Expire()` (44_timer_and_control.md R173). -/
def State.expire (s : State) : State :=
  State.emit (.diag .parseTimeout) (State.cancel (State.goto .data s))

/-- The body of `RX_CODE` (42_stream_parser.md R126). -/
def State.takeCode (b : Byte) (s : State) : State :=
  { s with cmdCode := tagValue b, infoLen := 0, chk := fold Config.seed [b], st := .commandLength }

/-- `CodeProc(b)` (42_stream_parser.md R126, R127): row 5 for tag bit 1, row 6 for tag bit 0. -/
def State.codeProc (b : Byte) (s : State) : State :=
  if tagBit b then State.takeCode b s else State.raiseViolation .code b s

/-- `remaining - 1`, "only while it is greater than zero, so it never wraps" (10_state.md R23). -/
def decRemaining (r : Value) : Value := if r = 0 then 0 else r - 1

/-- The state after `remaining` info bytes are still to come: `CommandInfo` if any, else `CommandChecksum`
(42_stream_parser.md R128, R130). -/
def infoOrChecksum (remaining : Value) : Fsm := if remaining = 0 then .commandChecksum else .commandInfo

/-- The end of a frame at its checksum byte: the timer is cancelled, `e` emitted, `st <- Data` (42_stream_parser.md R131, R132). -/
def State.endFrame (e : OutEvent) (s : State) : State :=
  State.goto .data (State.emit e (State.cancel s))

end Sys2Proof.Machine
end

