-- ==== Sys2Proof/Machine/Command.lean ====
section
/-! DEFINITION. The receive rows of command parsing (42_stream_parser.md section 3). -/

namespace Sys2Proof.Machine

/-- `RX_CODE` (42_stream_parser.md R126). -/
def execRxCode (b : Byte) (s : State) : Result :=
  acceptRx s (.next (s.takeCode b))

/-- `RX_CODE_BADTAG` (42_stream_parser.md R127). -/
def execRxCodeBadtag (b : Byte) (s : State) : Result :=
  acceptRx s (.next (s.raiseViolation .code b))

/-- `RX_LEN` (42_stream_parser.md R128). -/
def execRxLen (b : Byte) (s : State) : Result :=
  acceptRx s (.next
    { s with remaining := tagValue b, chk := s.chk ^^^ b, st := infoOrChecksum (tagValue b) })

/-- `RX_LEN_BADTAG` (42_stream_parser.md R129). -/
def execRxLenBadtag (b : Byte) (s : State) : Result :=
  acceptRx s (.next (s.raiseViolation .length b))

/-- `RX_INFO` (42_stream_parser.md R130); the write faults at an index that is no cell of the buffer (20_memory.md R51), which
no reachable state has. -/
def execRxInfo (b : Byte) (s : State) : Result :=
  acceptRx s
    (match s.infoWrite s.infoLen.toNat b with
    | none => .fault .infoIndexOutOfRange
    | some s1 => .next
      { s1 with
        infoLen := s.infoLen + 1,
        chk := s.chk ^^^ b,
        remaining := decRemaining s.remaining,
        st := infoOrChecksum (decRemaining s.remaining) })

/-- `RX_CHK_MATCH` (42_stream_parser.md R131). The byte is not folded or stored: it was compared with `chk` when the row was
selected. -/
def execRxChkMatch (_b : Byte) (s : State) : Result :=
  acceptRx s (.next (s.endFrame (.cmd s.cmdCode s.infoList)))

/-- `RX_CHK_MISMATCH` (42_stream_parser.md R132). The diagnostic does not carry the byte (91_not_in_source.md N13). -/
def execRxChkMismatch (_b : Byte) (s : State) : Result :=
  acceptRx s (.next (s.endFrame (.diag (.checksumMismatch s.cmdCode s.infoLen s.infoList))))

end Sys2Proof.Machine
end

