-- ==== Sys2Proof/Machine/Control.lean ====
section
/-! DEFINITION. The timer, reset and configuration events (44_timer_and_control.md). All are accepted in every state. -/

namespace Sys2Proof.Machine

/-- `TICK` (44_timer_and_control.md R172, R173). -/
def execTick (s : State) : Result :=
  if s.armed = false then .next s
  else if s.count.toNat ≤ 1 then .next s.expire
  else .next { s with count := s.count - 1 }

/-- `PARSER_RESET` (44_timer_and_control.md R175). -/
def execParserReset (s : State) : Result := .next s.parserReset

/-- `RESET`: the effect of `PARSER_RESET`, then `timeout_ticks <- 2000` (44_timer_and_control.md R176). -/
def execReset (s : State) : Result :=
  .next { s.parserReset with timeoutTicks := Config.timeoutDefault }

/-- `CFG_TIMEOUT(v)` (44_timer_and_control.md R174). -/
def execCfgTimeout (v : Ticks) (s : State) : Result := .next { s with timeoutTicks := v }

end Sys2Proof.Machine
end

