-- ==== Sys2Proof/Machine/Data.lean ====
section
/-! DEFINITION. The receive rows of data mode (42_stream_parser.md section 2). The row's state and byte are the decoder's choice
(30_encoding.md R79); a meaning adds the acceptance test of R120. -/

namespace Sys2Proof.Machine

/-- `RX_DATA_ESC` (42_stream_parser.md R122). -/
def execRxDataEsc (s : State) : Result :=
  acceptRx s (.next (s.goto .escaping))

/-- `RX_DATA_BYTE` (42_stream_parser.md R123). -/
def execRxDataByte (b : Byte) (s : State) : Result :=
  acceptRx s (.next (s.emit (.data b)))

/-- `RX_ESC_LITERAL` (42_stream_parser.md R124). -/
def execRxEscLiteral (s : State) : Result :=
  acceptRx s (.next ((s.emit (.data Config.sentinel)).goto .data))

/-- `RX_ESC_CMD` (42_stream_parser.md R125): arm, then process the byte as the code byte, in one step. -/
def execRxEscCmd (b : Byte) (s : State) : Result :=
  acceptRx s (.next (s.arm.codeProc b))

end Sys2Proof.Machine
end

