-- ==== Sys2Proof/Machine/Pure.lean ====
section
/-! DEFINITION. The rows of format FN (30_encoding.md R85): pure functions, no events. A call leaves every register of the block
as it is; the value it returns stands in the model's own field `fnResult`. -/

namespace Sys2Proof.Machine

/-- `FOLD(seed, bytes)` (41_checksum_and_tag.md R100). -/
def execFold (seed : Byte) (bytes : List Byte) (s : State) : Result :=
  .next (s.answer (.byte (fold seed bytes)))

/-- `TAG_DECODE(c)` (41_checksum_and_tag.md R103). -/
def execTagDecode (c : Byte) (s : State) : Result :=
  .next (s.answer (.tag (tagDecode c)))

/-- `TAG_ENCODE(v)` (41_checksum_and_tag.md R104): refused for `v` >= 128. -/
def execTagEncode (v : Nat) (s : State) : Result :=
  match tagEncode v with
  | some b => .next (s.answer (.byte b))
  | none => .refused .tagEncodeOutOfRange

end Sys2Proof.Machine
end

