-- ==== Sys2Proof/Machine/Transmit.lean ====
section
/-! DEFINITION. The transmit requests (43_frame_codec.md): pure and stateless, one `TX` output each; a receive fault does not
affect them (60_exceptions.md R209). -/

namespace Sys2Proof.Machine

/-- `TX_DATA(bytes)` (43_frame_codec.md R150). -/
def execTxData (bytes : List Byte) (s : State) : Result :=
  .next (s.emit (.tx (encodeData bytes)))

/-- `TX_CMD(payload, corrupt)` (43_frame_codec.md R152). -/
def execTxCmd (payload : List Byte) (corrupt : Bool) (s : State) : Result :=
  .next (s.emit (.tx (encodeCommand payload corrupt)))

end Sys2Proof.Machine
end

