-- ==== Sys2Proof/Machine/Dispatch.lean ====
section
/-! DEFINITION. One arm per constructor of `Instr`, each one call of its meaning. -/

namespace Sys2Proof.Machine

def exec (i : Instr) (s : State) : Host.Outcome State Fault Refusal :=
  match i with
  -- receive rows (42_stream_parser.md)
  | .rxDataEsc => Sys2Proof.Machine.execRxDataEsc s
  | .rxDataByte b => Sys2Proof.Machine.execRxDataByte b s
  | .rxEscLiteral => Sys2Proof.Machine.execRxEscLiteral s
  | .rxEscCmd b => Sys2Proof.Machine.execRxEscCmd b s
  | .rxCode b => Sys2Proof.Machine.execRxCode b s
  | .rxCodeBadtag b => Sys2Proof.Machine.execRxCodeBadtag b s
  | .rxLen b => Sys2Proof.Machine.execRxLen b s
  | .rxLenBadtag b => Sys2Proof.Machine.execRxLenBadtag b s
  | .rxInfo b => Sys2Proof.Machine.execRxInfo b s
  | .rxChkMatch b => Sys2Proof.Machine.execRxChkMatch b s
  | .rxChkMismatch b => Sys2Proof.Machine.execRxChkMismatch b s
  -- control events (44_timer_and_control.md)
  | .tick => Sys2Proof.Machine.execTick s
  | .parserReset => Sys2Proof.Machine.execParserReset s
  | .reset => Sys2Proof.Machine.execReset s
  | .cfgTimeout v => Sys2Proof.Machine.execCfgTimeout v s
  -- transmit requests (43_frame_codec.md)
  | .txData bytes => Sys2Proof.Machine.execTxData bytes s
  | .txCmd payload corrupt => Sys2Proof.Machine.execTxCmd payload corrupt s
  -- pure functions (41_checksum_and_tag.md)
  | .fold seed bytes => Sys2Proof.Machine.execFold seed bytes s
  | .tagDecode c => Sys2Proof.Machine.execTagDecode c s
  | .tagEncode v => Sys2Proof.Machine.execTagEncode v s

end Sys2Proof.Machine
end

