-- ==== Sys2Proof/Machine/Flags.lean ====
section
/-! DEFINITION. The block has no condition-code flags (10_state.md R33); its two one-bit flags are `armed` and `faulted`. Here are
the read-only views that show them and the other registers (10_state.md R30 to R32), the ready signal (00_scope.md R13) and the
cause codes of the diagnostics (60_exceptions.md R200). A view is a function of the state: "Reading it has no side effect". -/

namespace Sys2Proof.Machine

/-- `STATUS`: bits [2:0] = `st`; bit 3 = `armed`; bit 4 = `faulted`; bits [7:5] = 0 (10_state.md R30). -/
def statusView (s : State) : BitVec 8 :=
  (0 : BitVec 3) ++ BitVec.ofBool s.faulted ++ BitVec.ofBool s.armed ++ s.st.code

/-- `FAULT_INFO`: bits [7:0] = `fault_byte`; bits [9:8] = `fault_field`; bits [15:10] = 0 (10_state.md R31). -/
def faultInfoView (s : State) : BitVec 16 :=
  (0 : BitVec 6) ++ s.faultField ++ s.faultByte

/-- `TIMER`: the view of `count` (10_state.md R32). -/
def timerView (s : State) : BitVec 16 := s.count

/-- `CFG_TIMEOUT` reads back `timeout_ticks` (10_state.md R32). -/
def cfgTimeoutView (s : State) : BitVec 16 := s.timeoutTicks

/-- `rx_ready`, "low exactly when an `RX` event would be `stuck`" (00_scope.md R13). -/
def rxReady (s : State) : Bool := !s.faulted

/-- The cause code of a diagnostic, 1 to 4 (60_exceptions.md R200). -/
def Diag.cause : Diag → BitVec 3
  | .structuralViolation .code _ => 1
  | .structuralViolation .length _ => 2
  | .checksumMismatch _ _ _ => 3
  | .parseTimeout => 4

end Sys2Proof.Machine
end

