-- ==== Sys2Proof/Machine/Deliver.lean ====
section
/-! DEFINITION. Delivering input events to the block, and how the environment places them (00_scope.md R6, R7). -/

namespace Sys2Proof.Machine

/-- The refusal for what the decoder rejects (30_encoding.md R79, R81). -/
def refusalOf : Reject → Refusal
  | .reservedState code => .reservedState code
  | .reservedKind kind => .reservedEventKind kind
  | .rxWithoutKey => .rxWithoutKey

/-- Whether an event is an `RX` (30_encoding.md R84). -/
def isRx : Event → Bool
  | .rx _ => true
  | .tick | .parserReset | .reset | .cfgTimeout _ | .txData _ | .txCmd _ _ | .reserved _ => false

/-- One step of the block (00_scope.md R6, R11): an `RX` while `rx_ready` is low is `stuck` (42_stream_parser.md R120); otherwise
the event is decoded with `st` and `chk` and its row runs (R121). -/
def deliver (e : Event) (s : State) : Result :=
  if isRx e && !rxReady s then .fault .stuck
  else match decodeEvent s.st.code s.chk e with
    | .instr i => exec i s
    | .rejected r => .refused (refusalOf r)

/-- A sequence of events delivered one after the other; a stop ends it (20_memory.md R60). -/
def deliverAll : List Event → State → Result
  | [], s => .next s
  | e :: es, s =>
    match deliver e s with
    | .next t => deliverAll es t
    | .fault f => .fault f
    | .refused r => .refused r

/-- The environment offers further events, behind those still pending (20_memory.md R60). -/
def State.offer (es : List Event) (s : State) : State := { s with inbox := s.inbox ++ es }

/-- The head of the inbox is delivered; with no event pending the block waits for the environment, unchanged (00_scope.md R6). -/
def stepInbox (s : State) : Result :=
  match s.inbox with
  | [] => .next s
  | e :: rest => deliver e { s with inbox := rest }

/-- Placing a code as the next input event: a key sets `st` and puts its `RX` first, a kind puts its event first. -/
def State.placeCode (s : State) : Code → State
  | .key k => { s with st := Fsm.ofCode (keyState k), inbox := .rx (keyByte k) :: s.inbox }
  | .event kind _ => { s with inbox := Event.ofKind kind :: s.inbox }

/-- Placing a table row's bits as the next input event; bits that are no code place nothing. -/
def State.placeWord (s : State) (nbits w : Nat) : State :=
  match tableCode nbits w with
  | some c => s.placeCode c
  | none => s

end Sys2Proof.Machine
end

