-- ==== Sys2Proof/Machine/Step.lean ====
section
/-! DEFINITION. The step function and the host's way to place one instruction. -/

namespace Sys2Proof.Machine

/-- One step: the next pending input event is delivered (00_scope.md R6). -/
def step (s : State) : Host.Outcome State Fault Refusal := stepInbox s

/-- `s` with the table row's bits `w` as the next thing `step` runs. -/
def State.withFetchWord (s : State) (nbits w : Nat) : State := s.placeWord nbits w

end Sys2Proof.Machine
end

