-- ==== Sys2Proof/Machine/Stimulus.lean ====
section
/-! DEFINITION. The stimulus notation of 30_encoding.md R86: one constructor per line form, its expansion into input events, and how
an environment plays a sequence of lines. The environment's side; no step of the block uses it. -/

namespace Sys2Proof.Machine

/-- A line of the notation, pseudo-instructions included (30_encoding.md R86). `tick` alone is `tick 1`. -/
inductive Line where
  | rx (bytes : List Byte)
  | tick (n : Nat)
  | preset
  | reset
  | cfg (v : Ticks)
  | txd (bytes : List Byte)
  | txc (payload : List Byte)
  | txcBang (payload : List Byte)
  | rxd (bytes : List Byte)
  | rxc (code : Nat) (info : List Byte)
  | rxcBang (code : Nat) (info : List Byte)
  | expire
deriving DecidableEq, Repr

/-- A received chunk: one `RX` event per byte (20_memory.md R59). -/
def rxEvents (bytes : List Byte) : List Event := bytes.map Event.rx

/-- The payload `[TAG_ENCODE(code), TAG_ENCODE(n)] ++ info` with `n` the number of info bytes; `none` where `TAG_ENCODE` refuses
(30_encoding.md R86, 41_checksum_and_tag.md R104). -/
def commandPayload (code : Nat) (info : List Byte) : Option (List Byte) :=
  match tagEncode code, tagEncode info.length with
  | some c, some n => some ([c, n] ++ info)
  | _, _ => none

/-- The events a line stands for in a state (`expire` depends on `count`); `none` where `TAG_ENCODE` refuses (30_encoding.md
R86). DESIGN CHOICE (log entry 21): with `armed` = 1 and `count` = 0, reachable after `cfg 0`, R86 says both that `expire` is
`tick N` with `N` = `count` and that it ends in the expiry, which it cannot without a tick; the model keeps `N` = `count`, so there `expire`
is no event and the timer stays armed. -/
def expandLine (s : State) : Line → Option (List Event)
  | .rx bytes => some (rxEvents bytes)
  | .tick n => some (List.replicate n .tick)
  | .preset => some [.parserReset]
  | .reset => some [.reset]
  | .cfg v => some [.cfgTimeout v]
  | .txd bytes => some [.txData bytes]
  | .txc payload => some [.txCmd payload false]
  | .txcBang payload => some [.txCmd payload true]
  | .rxd bytes => some (rxEvents (encodeData bytes))
  | .rxc code info => (commandPayload code info).map fun p => rxEvents (encodeCommand p false)
  | .rxcBang code info => (commandPayload code info).map fun p => rxEvents (encodeCommand p true)
  | .expire => some (List.replicate s.count.toNat .tick)

/-- An event the environment tries to deliver: a `stuck` one is not accepted, "the state does not change" (00_scope.md R10), and
the environment may go on with another. -/
def attempt (e : Event) (s : State) : Result :=
  match deliver e s with
  | .fault .stuck => .next s
  | r => r

/-- The events of a line, each attempted in order. -/
def attemptAll : List Event → State → Result
  | [], s => .next s
  | e :: es, s =>
    match attempt e s with
    | .next t => attemptAll es t
    | .fault f => .fault f
    | .refused r => .refused r

/-- The lines of a stimulus, each expanded in the state it meets (30_encoding.md R86). -/
def playLines : List Line → State → Result
  | [], s => .next s
  | l :: ls, s =>
    match expandLine s l with
    | none => .refused .tagEncodeOutOfRange
    | some es =>
      match attemptAll es s with
      | .next t => playLines ls t
      | .fault f => .fault f
      | .refused r => .refused r

end Sys2Proof.Machine
end

