-- ==== Sys2Proof/Machine/Ports.lean ====
section
/-! DEFINITION. The signal-level view of 00_scope.md R13: the output signals of an output event, the input signals of a clock cycle
and the input events they stand for. It is informative there: "the normative interface is the event level". No step uses it. -/

namespace Sys2Proof.Machine

/-- The output signals in one transfer (00_scope.md R13). DESIGN CHOICE (log entry 18): a field whose valid signal is low is 0 here
and means nothing. -/
structure PortOut where
  dataValid : Bool := false
  dataByte : BitVec 8 := 0
  cmdValid : Bool := false
  cmdCode : BitVec 7 := 0
  cmdLen : BitVec 7 := 0
  diagValid : Bool := false
  diagCause : BitVec 3 := 0
  diagField : BitVec 2 := 0
  diagByte : BitVec 8 := 0
  diagCode : BitVec 7 := 0
  diagLen : BitVec 7 := 0
  txValid : Bool := false
  txByte : BitVec 8 := 0
deriving DecidableEq, Repr

/-- The signals of a diagnostic (00_scope.md R13, 60_exceptions.md R200). DESIGN CHOICE (log entry 18): R13 does not say what
`diag_field`, `diag_byte`, `diag_code` and `diag_len` carry while `diag_valid` is high for a cause without that field (R12); they
are 0 here and mean nothing: all four for a ParseTimeout, `diag_field` and `diag_byte` for a ChecksumMismatch, `diag_code` and
`diag_len` for a StructuralViolation. -/
def diagPort (d : Diag) : PortOut :=
  match d with
  | .checksumMismatch code infoLen _ =>
    { diagValid := true, diagCause := d.cause, diagCode := code, diagLen := infoLen }
  | .parseTimeout => { diagValid := true, diagCause := d.cause }
  | .structuralViolation field byte =>
    { diagValid := true, diagCause := d.cause, diagField := field.bits, diagByte := byte }

/-- The transfers of an output event: one each, and for `TX` one per wire byte (00_scope.md R13). -/
def portTransfers : OutEvent → List PortOut
  | .data b => [{ dataValid := true, dataByte := b }]
  | .cmd code info => [{ cmdValid := true, cmdCode := code, cmdLen := BitVec.ofNat 7 info.length }]
  | .diag d => [diagPort d]
  | .tx bytes => bytes.map fun b => { txValid := true, txByte := b }

/-- The read port `cmd_info_addr[6:0]`/`cmd_info_data[7:0]` on the info buffer (00_scope.md R13). DESIGN CHOICE (log entry 18): the
address 127, which is no cell of the buffer (20_memory.md R50), reads 0x00 in a canonical buffer. -/
def cmdInfoData (s : State) (addr : BitVec 7) : BitVec 8 := Memory.read s.info addr.toNat

/-- A received byte and a tick in the same clock cycle: "the byte is processed first and the tick after it"
(44_timer_and_control.md R178). -/
def sameCycle (rx : Option Byte) (tick : Bool) : List Event :=
  (match rx with | some b => [.rx b] | none => []) ++ (if tick then [.tick] else [])

/-- The input signals in one clock cycle (00_scope.md R13); `rx_data` and `cfg_wdata` mean something only while `rx_valid` and
`cfg_we` are high. R13 gives `TX_DATA` and `TX_CMD` no signal. -/
structure PortIn where
  rxValid : Bool := false
  rxData : BitVec 8 := 0
  tick : Bool := false
  preset : Bool := false
  rst : Bool := false
  cfgWe : Bool := false
  cfgWdata : BitVec 16 := 0
deriving DecidableEq, Repr

/-- The byte transferred in a cycle: `rx_valid` with `rx_ready` high, since with `rx_ready` low the `RX` "would be `stuck`"
(00_scope.md R13). DESIGN CHOICE (log entry 18): `rx_ready` is that of the state at the start of the cycle. -/
def rxTransfer (s : State) (p : PortIn) : Option Byte :=
  if p.rxValid && rxReady s then some p.rxData else none

/-- The input events that the signals of one cycle stand for, each once (00_scope.md R13), the byte before the tick (R178). -/
def portEvents (s : State) (p : PortIn) : List Event :=
  sameCycle (rxTransfer s p) p.tick ++
    (if p.preset then [.parserReset] else []) ++
    (if p.rst then [.reset] else []) ++
    (if p.cfgWe then [.cfgTimeout p.cfgWdata] else [])

/-- No byte stands after a tick (44_timer_and_control.md R178). -/
def byteBeforeTick : List Event → Bool
  | [] => true
  | .tick :: es => es.all (fun e => !isRx e) && byteBeforeTick es
  | _ :: es => byteBeforeTick es

/-- The orders in which the events of one cycle may be processed. The spec orders the byte and the tick only (R178), so every
other order is left open (log entry 18). -/
def cycleOrder (s : State) (p : PortIn) (es : List Event) : Bool :=
  es.isPerm (portEvents s p) && byteBeforeTick es

/-- The bytes of a `TX` output; any other output puts nothing on the wire (20_memory.md R53). -/
def wireBytes : OutEvent → List Byte
  | .tx bytes => bytes
  | .data _ | .cmd _ _ | .diag _ => []

/-- The bytes the data sink has received (20_memory.md R61). -/
def dataBytes : OutEvent → List Byte
  | .data b => [b]
  | .cmd _ _ | .diag _ | .tx _ => []

/-- The transmitted stream: the `TX` outputs in request order, each contiguous (20_memory.md R53). -/
def txStream (outputs : List OutEvent) : List Byte := outputs.flatMap wireBytes

/-- The stream of the data sink, in the order of the bytes that caused it (20_memory.md R61). -/
def dataStream (outputs : List OutEvent) : List Byte := outputs.flatMap dataBytes

end Sys2Proof.Machine
end

