-- ==== Sys2Proof/Safety.lean ====
section
/-! DEFINITION. The invariant of the block's states (10_state.md section 7), the reachable states, and the words the statements
use. -/

namespace Sys2Proof.Machine

/-- The invariants of reachable states, in the registers' own terms. -/
structure State.Inv (s : State) : Prop where
  /-- The info buffer is in its canonical form, indices 0..126 (20_memory.md R50, R51). -/
  infoWf : Memory.wf s.info = true
  /-- `st` is one of the six named states and not `CommandCode` (10_state.md R21, R22). -/
  stLegal : s.st = .data ∨ s.st = .escaping ∨ s.st.inFrame = true
  /-- `armed` = 1 exactly when `faulted` = 0 and a frame is being parsed (10_state.md R34). -/
  armedIff : s.armed = true ↔ (s.faulted = false ∧ s.st.inFrame = true)
  /-- `count` is 0 whenever `armed` = 0 (10_state.md R32). -/
  countZero : s.armed = false → s.count = 0
  /-- In `CommandInfo`, at least one info byte is still to come (10_state.md R35). -/
  remainingInfo : s.st = .commandInfo → 1 ≤ s.remaining.toNat
  /-- In `CommandChecksum`, none is (10_state.md R35). -/
  remainingChecksum : s.st = .commandChecksum → s.remaining = 0
  /-- The info bytes received and to come are at most 127 (10_state.md R26, R35). -/
  lengthBound : s.st = .commandInfo ∨ s.st = .commandChecksum →
    s.infoLen.toNat + s.remaining.toNat ≤ Config.maxLen
  /-- In `CommandLength`, the info is empty and `chk` is the fold of the code byte (10_state.md R36). -/
  foldCode : s.st = .commandLength →
    s.infoLen = 0 ∧ s.chk = fold Config.seed [tagByte s.cmdCode]
  /-- In `CommandInfo` and `CommandChecksum`, `chk` is the fold of the code byte, the length byte and the info bytes so far
  (10_state.md R36). -/
  foldFrame : s.st = .commandInfo ∨ s.st = .commandChecksum →
    s.chk = fold Config.seed
      ([tagByte s.cmdCode, tagByte (s.infoLen + s.remaining)] ++ s.infoList)
  /-- A frame in progress does not carry code 127 (30_encoding.md R76). -/
  codeEncodable : s.st.inFrame = true → s.cmdCode.toNat ≤ Config.maxCodeEncodable
  /-- Without a fault the fault record is clear (60_exceptions.md R201, R208). -/
  clean : s.faulted = false → s.faultField = 0 ∧ s.faultByte = 0x00
  /-- With a fault, `fault_field` names the byte that failed and `st` is where it was received (42_stream_parser.md R127, R129). -/
  record : s.faulted = true → tagBit s.faultByte = false ∧
    ((s.faultField = 1 ∧ s.st = .escaping) ∨ (s.faultField = 2 ∧ s.st = .commandLength))

/-- A reachable state: the reset state, or the state after an event of the environment's choice is delivered in a reachable
state (70_reset_and_hazards.md R230, 00_scope.md R7). -/
inductive Reachable : State → Prop where
  | reset : Reachable State.reset
  | deliver (e : Event) {s t : State} (hs : Reachable s) (ht : deliver e s = .next t) : Reachable t

/-- The bytes of the `RX` events in a sequence of events (20_memory.md R52). -/
def rxBytesOf : List Event → List Byte
  | [] => []
  | .rx b :: es => b :: rxBytesOf es
  | _ :: es => rxBytesOf es

/-- The number of `TICK` events in a sequence of events. -/
def ticksIn : List Event → Nat
  | [] => 0
  | .tick :: es => ticksIn es + 1
  | _ :: es => ticksIn es

/-- Whether an event is an `RX` or a `TICK`. -/
def isRxOrTick : Event → Bool
  | .rx _ | .tick => true
  | .parserReset | .reset | .cfgTimeout _ | .txData _ | .txCmd _ _ | .reserved _ => false

/-- Whether an instruction is a receive row (30_encoding.md R79). -/
def isRxRow : Instr → Bool
  | .rxDataEsc | .rxDataByte _ | .rxEscLiteral | .rxEscCmd _ | .rxCode _ | .rxCodeBadtag _ => true
  | .rxLen _ | .rxLenBadtag _ | .rxInfo _ | .rxChkMatch _ | .rxChkMismatch _ => true
  | .tick | .parserReset | .reset | .cfgTimeout _ | .txData _ | .txCmd _ _ => false
  | .fold _ _ | .tagDecode _ | .tagEncode _ => false

/-- Whether an output event is a StructuralViolation report. -/
def isViolation : OutEvent → Bool
  | .diag (.structuralViolation _ _) => true
  | .diag (.checksumMismatch _ _ _) | .diag .parseTimeout => false
  | .data _ | .cmd _ _ | .tx _ => false

/-- Whether an output event ends a frame: a `CMD` or a `DIAG` (42_stream_parser.md R133). -/
def endsFrame : OutEvent → Bool
  | .cmd _ _ | .diag _ => true
  | .data _ | .tx _ => false

end Sys2Proof.Machine
end

