-- ==== Sys2Proof/Certificates/Slice0/Obligations.lean ====
section
/-! DEFINITION. The statements. A receive row's statement has two clauses: what its meaning does in every state that accepts
an `RX`, and that delivering the byte in the row's state does the same. The next state is written out in full, so each is also a
completion statement. The output events of a step are what it adds at the end of `outputs`, and the pending events stand in
`inbox` (the model's rendering of the two event streams: log entries 1 and 2). -/

open Sys2Proof Sys2Proof.Machine

/-! ## Encoding -/

/-- Words of the opcode table, written out bit by bit from its `encoding` column (30_encoding.md sections 4 and 6): `sss bbbbbbbb`
for a receive row, the 4-bit kind for an event. Three things are the model's own choices: that 8 bits are read as a kind and 16
as a key, that a bare kind has zero or empty operands (`CFG_TIMEOUT(0)`, `TX_DATA([])`, `TX_CMD([], 0)`) (log entry 10), and that
rows 10 and 11 are read at `chk` = 0xFF (log entry 12). -/
def Obligations.SampleWordsDecode : Prop :=
  decodeTableWord 16 0b00011111111 = some .rxDataEsc ∧
  decodeTableWord 16 0b00001000001 = some (.rxDataByte 0x41) ∧
  decodeTableWord 16 0b00111111111 = some .rxEscLiteral ∧
  decodeTableWord 16 0b00100000111 = some (.rxEscCmd 0x07) ∧
  decodeTableWord 16 0b01000001001 = some (.rxCode 0x09) ∧
  decodeTableWord 16 0b01000000010 = some (.rxCodeBadtag 0x02) ∧
  decodeTableWord 16 0b01111111111 = some (.rxLen 0xFF) ∧
  decodeTableWord 16 0b01100000000 = some (.rxLenBadtag 0x00) ∧
  decodeTableWord 16 0b10010101010 = some (.rxInfo 0xAA) ∧
  decodeTableWord 16 0b10111111111 = some (.rxChkMatch 0xFF) ∧
  decodeTableWord 16 0b10100000110 = some (.rxChkMismatch 0x06) ∧
  decodeTableWord 16 0b11000000000 = none ∧
  decodeTableWord 8 0b0001 = some .tick ∧
  decodeTableWord 8 0b0010 = some .parserReset ∧
  decodeTableWord 8 0b0011 = some .reset ∧
  decodeTableWord 8 0b0100 = some (.cfgTimeout 0) ∧
  decodeTableWord 8 0b0101 = some (.txData []) ∧
  decodeTableWord 8 0b0110 = some (.txCmd [] false) ∧
  decodeTableWord 8 0b0111 = none

/-- The table of the receive FSM's decode key, all 2048 keys (30_encoding.md section 4, R79; its state codes are the spec's own
decision D3). -/
def Obligations.ReceiveKeySelectsItsRow : Prop :=
  ∀ (chk b : Byte),
    decodeKey chk (rxKey 0 b) = .instr (if b = 0xFF then .rxDataEsc else .rxDataByte b) ∧
    decodeKey chk (rxKey 1 b) = .instr (if b = 0xFF then .rxEscLiteral else .rxEscCmd b) ∧
    decodeKey chk (rxKey 2 b) = .instr (if b.toNat % 2 = 1 then .rxCode b else .rxCodeBadtag b) ∧
    decodeKey chk (rxKey 3 b) = .instr (if b.toNat % 2 = 1 then .rxLen b else .rxLenBadtag b) ∧
    decodeKey chk (rxKey 4 b) = .instr (.rxInfo b) ∧
    decodeKey chk (rxKey 5 b) = .instr (if b = chk then .rxChkMatch b else .rxChkMismatch b) ∧
    decodeKey chk (rxKey 6 b) = .rejected (.reservedState 6) ∧
    decodeKey chk (rxKey 7 b) = .rejected (.reservedState 7)

/-- The event kinds 1 to 6 decode to their rows with their operands, in every state (30_encoding.md section 6; the numbering is
the spec's own decision D2). -/
def Obligations.EventKindsDecode : Prop :=
  ∀ (st : BitVec 3) (chk : Byte),
    decodeEvent st chk .tick = .instr .tick ∧
    decodeEvent st chk .parserReset = .instr .parserReset ∧
    decodeEvent st chk .reset = .instr .reset ∧
    (∀ v, decodeEvent st chk (.cfgTimeout v) = .instr (.cfgTimeout v)) ∧
    (∀ bytes, decodeEvent st chk (.txData bytes) = .instr (.txData bytes)) ∧
    (∀ payload corrupt,
      decodeEvent st chk (.txCmd payload corrupt) = .instr (.txCmd payload corrupt))

/-- Reserved encodings have no step and are refused by name: event kinds 7 to 15, and an `RX` in a state with the code 6 or 7
(30_encoding.md sections 4 and 5; the spec's own decision D26). -/
def Obligations.ReservedEncodingsAreRefused : Prop :=
  (∀ (kind : BitVec 4) (o : Operands) (chk : Byte), 7 ≤ kind.toNat →
    decode chk (.event kind o) = .rejected (.reservedKind kind)) ∧
  (∀ (k : Fin 9) (rest : List Event) (s : State), s.inbox = .reserved k :: rest →
    step s = .refused (.reservedEventKind (BitVec.ofNat 4 (7 + k.val)))) ∧
  (∀ (b : Byte) (rest : List Event) (s : State), s.inbox = .rx b :: rest → s.faulted = false →
    s.st = .reserved6 ∨ s.st = .reserved7 → step s = .refused (.reservedState s.st.code))

/-- Decoding the encoding of any well-formed instruction gives it back, with every operand at every value the encoding admits;
`selectedBy` is the condition on `chk` of rows 10 and 11. -/
def Obligations.DecodeAgreesWithEncode : Prop :=
  ∀ (i : Instr) (chk : Byte) (c : Code),
    i.wf = true → i.selectedBy chk = true → encode i = some c → decode chk c = .instr i

/-- What the decoder reads is well-formed, meets its row's condition, and encodes back to the code it was read from (a kind's
unused operands excepted; that operands are data beside the kind is the model's choice, log entry 10). -/
def Obligations.EncodeAgreesWithDecode : Prop :=
  ∀ (chk : Byte) (c : Code) (i : Instr), decode chk c = .instr i →
    i.wf = true ∧ i.selectedBy chk = true ∧
    match c with
    | .key k => encode i = some (.key k)
    | .event kind _ => ∃ o, encode i = some (.event kind o)

/-! ## The step -/

/-- The first pending event, if it decodes to `i`, is taken out of the inbox and `exec i` is the step (00_scope.md section 4); with
no event pending the block waits unchanged (the model's choice, log entry 4). -/
def Obligations.StepRunsDecodedInstruction : Prop :=
  (∀ (s : State) (e : Event) (rest : List Event) (i : Instr),
    s.inbox = e :: rest → decodeEvent s.st.code s.chk e = .instr i →
    step s = exec i { s with inbox := rest }) ∧
  ∀ s : State, s.inbox = [] → step s = .next s

/-- A table word placed by `withFetchWord` is what the next step runs, in a state that accepts it (the model's choices
of how a word is read and placed: log entries 10, 11 and 12). -/
def Obligations.PlacedWordRunsNext : Prop :=
  ∀ (s : State) (nbits w : Nat) (c : Code) (i : Instr),
    tableCode nbits w = some c → decode s.chk c = .instr i →
    (∃ t, s.withFetchWord nbits w = t ∧ t.chk = s.chk ∧ t.faulted = s.faulted ∧
      step t = exec i { t with inbox := s.inbox })

/-! ## Receive rows -/

/-- R122. -/
def Obligations.RxDataEscEntersEscaping : Prop :=
  ∀ s : State, s.faulted = false →
    exec .rxDataEsc s = .next { s with st := .escaping } ∧
    (s.st = .data → deliver (.rx 0xFF) s = .next { s with st := .escaping })

/-- R123. -/
def Obligations.RxDataByteDeliversTheByte : Prop :=
  ∀ (s : State) (b : Byte), s.faulted = false → b ≠ 0xFF →
    exec (.rxDataByte b) s = .next { s with outputs := s.outputs ++ [.data b] } ∧
    (s.st = .data → deliver (.rx b) s = .next { s with outputs := s.outputs ++ [.data b] })

/-- R124. -/
def Obligations.RxEscLiteralDeliversTheSentinel : Prop :=
  ∀ s : State, s.faulted = false →
    exec .rxEscLiteral s = .next { s with st := .data, outputs := s.outputs ++ [.data 0xFF] } ∧
    (s.st = .escaping →
      deliver (.rx 0xFF) s = .next { s with st := .data, outputs := s.outputs ++ [.data 0xFF] })

/-- `RX_ESC_CMD` with an odd byte (42_stream_parser.md section 2): the timer is armed and the byte is the code byte, in one
step. -/
def Obligations.RxEscCmdArmsAndTakesTheCode : Prop :=
  ∀ (s : State) (b : Byte), s.faulted = false → b ≠ 0xFF → b.toNat % 2 = 1 →
    let t : State :=
      { s with
        armed := true, count := s.timeoutTicks, cmdCode := b.extractLsb' 1 7, infoLen := 0,
        chk := 0xFF ^^^ b, st := .commandLength }
    exec (.rxEscCmd b) s = .next t ∧ (s.st = .escaping → deliver (.rx b) s = .next t)

/-- R126. -/
def Obligations.RxCodeStartsTheCommand : Prop :=
  ∀ (s : State) (b : Byte), s.faulted = false → b.toNat % 2 = 1 →
    let t : State :=
      { s with
        cmdCode := b.extractLsb' 1 7, infoLen := 0, chk := 0xFF ^^^ b, st := .commandLength }
    exec (.rxCode b) s = .next t ∧ (s.st = .commandCode → deliver (.rx b) s = .next t)

/-- An even structural byte raises StructuralViolation: CODE for the byte after a single sentinel (`RX_ESC_CMD`, whose re-dispatched
row "also undoes the arming", and `RX_CODE_BADTAG`), LENGTH for the length byte (`RX_LEN_BADTAG`). The record is written, the
timer cancelled, the report emitted, and nothing else changes, so `st` stays where the byte was received (42_stream_parser.md
sections 2 and 3, 60_exceptions.md section 1; what the state is after a violation is the spec's own decision D8). -/
def Obligations.EvenStructuralByteRaisesViolation : Prop :=
  ∀ (s : State) (b : Byte), s.faulted = false → b.toNat % 2 = 0 →
    let raised (field : StructField) (code : BitVec 2) : State :=
      { s with
        faulted := true, faultField := code, faultByte := b, armed := false, count := 0,
        outputs := s.outputs ++ [.diag (.structuralViolation field b)] }
    exec (.rxEscCmd b) s = .next (raised .code 1) ∧
    exec (.rxCodeBadtag b) s = .next (raised .code 1) ∧
    exec (.rxLenBadtag b) s = .next (raised .length 2) ∧
    (s.st = .escaping ∨ s.st = .commandCode → deliver (.rx b) s = .next (raised .code 1)) ∧
    (s.st = .commandLength → deliver (.rx b) s = .next (raised .length 2))

/-- R128. -/
def Obligations.RxLenLoadsTheLength : Prop :=
  ∀ (s : State) (b : Byte), s.faulted = false → b.toNat % 2 = 1 →
    let t : State :=
      { s with
        remaining := b.extractLsb' 1 7, chk := s.chk ^^^ b,
        st := if 0 < (b.extractLsb' 1 7).toNat then .commandInfo else .commandChecksum }
    exec (.rxLen b) s = .next t ∧ (s.st = .commandLength → deliver (.rx b) s = .next t)

/-- R130, with `remaining >= 1` ("remaining >= 1 here"), `info_len` a cell of the buffer and the buffer in its canonical form, as
in every reachable state; the buffer is stated by what each cell reads. -/
def Obligations.RxInfoAppendsTheByte : Prop :=
  ∀ (s : State) (b : Byte), s.faulted = false → Memory.wf s.info = true →
    1 ≤ s.remaining.toNat → s.infoLen.toNat < 127 →
    ∃ m : Memory,
      Memory.read m s.infoLen.toNat = b ∧
      (∀ i, i ≠ s.infoLen.toNat → Memory.read m i = Memory.read s.info i) ∧
      let t : State :=
        { s with
          info := m, infoLen := s.infoLen + 1, chk := s.chk ^^^ b, remaining := s.remaining - 1,
          st := if 1 < s.remaining.toNat then .commandInfo else .commandChecksum }
      exec (.rxInfo b) s = .next t ∧ (s.st = .commandInfo → deliver (.rx b) s = .next t)

/-- `RX_INFO` where no reachable state has it. With `remaining` = 0 the byte is appended, `remaining` stays 0 ("only while it is
greater than zero, so it never wraps") and the checksum byte is next (the model's reading, log entry 7); with 127 info bytes
already received the write faults by name (the model's choice to stop there, log entry 6). -/
def Obligations.RxInfoBeyondReachableStates : Prop :=
  ∀ (s : State) (b : Byte), s.faulted = false → Memory.wf s.info = true →
    (s.remaining = 0 → s.infoLen.toNat < 127 →
      ∃ t, exec (.rxInfo b) s = .next t ∧ t.remaining = 0 ∧ t.st = .commandChecksum ∧
        t.infoLen = s.infoLen + 1 ∧ t.chk = s.chk ^^^ b ∧ Memory.read t.info s.infoLen.toNat = b) ∧
    (s.infoLen.toNat = 127 → exec (.rxInfo b) s = .fault .infoIndexOutOfRange)

/-- R131. -/
def Obligations.RxChkMatchDeliversTheCommand : Prop :=
  ∀ (s : State) (b : Byte), s.faulted = false → b = s.chk →
    let t : State :=
      { s with
        armed := false, count := 0, st := .data,
        outputs := s.outputs ++
          [.cmd s.cmdCode ((List.range s.infoLen.toNat).map (Memory.read s.info))] }
    exec (.rxChkMatch b) s = .next t ∧ (s.st = .commandChecksum → deliver (.rx b) s = .next t)

/-- R132. -/
def Obligations.RxChkMismatchDropsTheCommand : Prop :=
  ∀ (s : State) (b : Byte), s.faulted = false → b ≠ s.chk →
    let t : State :=
      { s with
        armed := false, count := 0, st := .data,
        outputs := s.outputs ++ [.diag (.checksumMismatch s.cmdCode s.infoLen
          ((List.range s.infoLen.toNat).map (Memory.read s.info)))] }
    exec (.rxChkMismatch b) s = .next t ∧ (s.st = .commandChecksum → deliver (.rx b) s = .next t)

/-- While `faulted` = 1 every receive row, every `RX` delivered and every step on a pending `RX` is `stuck`, whatever the byte and
the state (42_stream_parser.md section 1; the spec's own decision D8; the fault's name is log entry 5's). -/
def Obligations.RxIsStuckWhileFaulted : Prop :=
  ∀ s : State, s.faulted = true →
    (∀ i, isRxRow i = true → exec i s = .fault .stuck) ∧
    (∀ b, deliver (.rx b) s = .fault .stuck) ∧
    (∀ b rest, s.inbox = .rx b :: rest → step s = .fault .stuck)

/-! ## Timer, resets, configuration -/

/-- `TICK` without a pending timer changes nothing, and with more than one tick left it takes one off (44_timer_and_control.md
section 1; the countdown is the spec's own decision D5). -/
def Obligations.TickCountsDown : Prop :=
  ∀ s : State,
    (s.armed = false → exec .tick s = .next s) ∧
    (s.armed = true → 1 < s.count.toNat → exec .tick s = .next { s with count := s.count - 1 })

/-- The expiry, at a `TICK` that finds the timer armed with at most one tick left (44_timer_and_control.md section 1; at which
tick it comes is the spec's own decision D5). -/
def Obligations.ExpiryReturnsToData : Prop :=
  ∀ s : State, s.armed = true → s.count.toNat ≤ 1 →
    exec .tick s = .next
      { s with
        st := .data, armed := false, count := 0, outputs := s.outputs ++ [.diag .parseTimeout] }

/-- The countdown as a whole: fewer than `max(count, 1)` ticks only count, and the `max(count, 1)`-th expires
(44_timer_and_control.md section 1; decision D5). -/
def Obligations.ExpiryAtTheLastTick : Prop :=
  ∀ s : State, s.armed = true →
    (∀ k, k < max s.count.toNat 1 →
      deliverAll (List.replicate k .tick) s = .next { s with count := s.count - BitVec.ofNat 16 k }) ∧
    deliverAll (List.replicate (max s.count.toNat 1) .tick) s = .next
      { s with
        st := .data, armed := false, count := 0, outputs := s.outputs ++ [.diag .parseTimeout] }

/-- Timeout recovery (44_timer_and_control.md section 4; the count of ticks is the spec's own decision D5): from the code byte,
with any bytes and ticks after it such that the frame is still in progress (nothing emitted, the timer pending) and one tick of
the window is left, that tick returns the parser to `Data` with one report, and the next data byte is delivered. -/
def Obligations.TimeoutRecovery : Prop :=
  ∀ (s t : State) (b c : Byte) (es : List Event),
    s.faulted = false → s.st = .escaping → b ≠ 0xFF → c ≠ 0xFF →
    es.all isRxOrTick = true → ticksIn es + 1 = max s.timeoutTicks.toNat 1 →
    deliverAll (.rx b :: es) s = .next t → t.outputs = s.outputs → t.armed = true →
    deliver .tick t = .next
      { t with
        st := .data, armed := false, count := 0, outputs := s.outputs ++ [.diag .parseTimeout] } ∧
    deliverAll [.tick, .rx c] t = .next
      { t with
        st := .data, armed := false, count := 0,
        outputs := s.outputs ++ [.diag .parseTimeout, .data c] }

/-- `CFG_TIMEOUT(v)` writes `timeout_ticks` and nothing else, in every state (44_timer_and_control.md section 2; decisions D4 and
D6). -/
def Obligations.CfgTimeoutSetsThePeriod : Prop :=
  ∀ (s : State) (v : Ticks), exec (.cfgTimeout v) s = .next { s with timeoutTicks := v }

/-- `PARSER_RESET` gives every register but `timeout_ticks` its reset value, `RESET` every register; neither emits anything, and
both do so in every state (44_timer_and_control.md section 3; the spec's own decisions D9, D10 and D11). -/
def Obligations.ResetsRestoreTheResetState : Prop :=
  ∀ s : State,
    exec .parserReset s = .next
      { State.reset with
        timeoutTicks := s.timeoutTicks, inbox := s.inbox, outputs := s.outputs,
        fnResult := s.fnResult } ∧
    exec .reset s = .next
      { State.reset with inbox := s.inbox, outputs := s.outputs, fnResult := s.fnResult }

/-- The reset values (10_state.md section 8; all but `st` and `chk` are the spec's own decisions D10 and D11). -/
def Obligations.ResetValues : Prop :=
  State.reset.st = .data ∧ State.reset.chk = 0xFF ∧ State.reset.remaining = 0 ∧
  State.reset.cmdCode = 0 ∧ State.reset.infoLen = 0 ∧
  (∀ i, Memory.read State.reset.info i = 0x00) ∧
  State.reset.armed = false ∧ State.reset.count = 0 ∧ State.reset.timeoutTicks.toNat = 2000 ∧
  State.reset.faulted = false ∧ State.reset.faultField = 0 ∧ State.reset.faultByte = 0x00

/-! ## Views -/

/-- The bits of `STATUS` and `FAULT_INFO`, and what `TIMER` and `CFG_TIMEOUT` read (10_state.md section 5; the layouts are the
spec's own decision D27). That `TIMER` reads `count` in every state is the model's reading (DEDUCED, log entry 17): the spec also
says that it reads 0 whenever `armed` = 0, and the two agree under the invariant, which the last clause states. -/
def Obligations.ViewsShowTheRegisters : Prop :=
  ∀ s : State,
    (statusView s).extractLsb' 0 3 = s.st.code ∧ (statusView s).getLsbD 3 = s.armed ∧
    (statusView s).getLsbD 4 = s.faulted ∧ (statusView s).extractLsb' 5 3 = 0 ∧
    (faultInfoView s).extractLsb' 0 8 = s.faultByte ∧
    (faultInfoView s).extractLsb' 8 2 = s.faultField ∧ (faultInfoView s).extractLsb' 10 6 = 0 ∧
    timerView s = s.count ∧ cfgTimeoutView s = s.timeoutTicks ∧
    (s.Inv → s.armed = false → timerView s = 0)

/-! ## Transmit requests and pure functions -/

/-- R150: `TX_DATA` emits one `TX` of the buffer with every sentinel doubled, whatever the buffer and the state. -/
def Obligations.TxDataStuffsTheBuffer : Prop :=
  ∀ (s : State) (bytes : List Byte),
    exec (.txData bytes) s = .next
      { s with
        outputs := s.outputs ++ [.tx (bytes.flatMap fun b => if b = 0xFF then [b, b] else [b])] }

/-- The laws of `encodeData` (43_frame_codec.md section 1; the spec marks them as derived from the loop). -/
def Obligations.EncodeDataLaws : Prop :=
  (∀ bytes, (encodeData bytes).length = bytes.length + bytes.count 0xFF) ∧
  (∀ a b, encodeData (a ++ b) = encodeData a ++ encodeData b)

/-- R152: `TX_CMD` emits the sentinel, the payload as it is, and its fold from 0xFF, inverted when `corrupt` = 1. -/
def Obligations.TxCmdFramesThePayload : Prop :=
  ∀ (s : State) (payload : List Byte) (corrupt : Bool),
    let c := payload.foldl (fun acc b => acc ^^^ b) (0xFF : Byte)
    exec (.txCmd payload corrupt) s = .next
      { s with
        outputs := s.outputs ++
          [.tx ([0xFF] ++ payload ++ [if corrupt = true then c ^^^ 0xFF else c])] }

/-- R100: `FOLD` over every list of bytes, as bits: bit `k` of the result is the parity of bit `k` over the seed and the bytes. -/
def Obligations.FoldIsTheXorOfSeedAndBytes : Prop :=
  ∀ (seed : Byte) (bytes : List Byte),
    fold seed [] = seed ∧
    (∀ b, fold seed (bytes ++ [b]) = fold seed bytes ^^^ b) ∧
    ∀ k, (fold seed bytes).getLsbD k =
      ((seed :: bytes).countP (fun b => b.getLsbD k) % 2 == 1)

/-- The laws of `FOLD` (41_checksum_and_tag.md section 1; the spec marks concatenation, order independence and corruption as
derived). -/
def Obligations.FoldLaws : Prop :=
  (∀ s a b, fold s (a ++ b) = fold (fold s a) b) ∧
  (∀ s (l l' : List Byte), l.Perm l' → fold s l = fold s l') ∧
  (∀ s l c, fold (fold s l) [c] = 0 ↔ c = fold s l) ∧
  (∀ s l k, k < 8 → (fold s l ^^^ 0xFF).getLsbD k = !(fold s l).getLsbD k)

/-- R103, over every byte, in numbers. -/
def Obligations.TagDecodeChecksTheTagBit : Prop :=
  ∀ c : Byte,
    (c.toNat % 2 = 0 → tagDecode c = none) ∧
    (c.toNat % 2 = 1 → ∃ v, tagDecode c = some v ∧ v.toNat = c.toNat / 2 ∧ v.toNat ≤ 127)

/-- `TAG_ENCODE` on its domain, its refusal outside (the spec's own decision D17), and that the two functions are inverse
(41_checksum_and_tag.md section 2). -/
def Obligations.TagEncodeIsInverse : Prop :=
  ∀ v : Nat,
    (v < 128 → ∃ c, tagEncode v = some c ∧ c.toNat = 2 * v + 1 ∧ tagDecode c = some (BitVec.ofNat 8 v)) ∧
    (128 ≤ v → tagEncode v = none ∧ ∀ s : State, exec (.tagEncode v) s = .refused .tagEncodeOutOfRange)

/-- A call of a pure function completes in every state with its value in `fnResult` (where the value stands is the model's choice,
log entry 3) and leaves everything else as it is. -/
def Obligations.FunctionCallsAnswerTheirValue : Prop :=
  ∀ s : State,
    (∀ seed bytes, exec (.fold seed bytes) s = .next
      { s with fnResult := some (.byte (bytes.foldl (fun acc b => acc ^^^ b) seed)) }) ∧
    (∀ c : Byte, exec (.tagDecode c) s = .next
      { s with fnResult := some (.tag (if c.toNat % 2 = 1 then some (c >>> 1) else none)) }) ∧
    (∀ v, v < 128 → exec (.tagEncode v) s = .next
      { s with fnResult := some (.byte (BitVec.ofNat 8 (2 * v + 1))) })

/-! ## Frames -/

/-- What the data-mode rows leave as it is: everything but `st` and the outputs (`RX_DATA_BYTE` keeps `st` too,
`RX_DATA_ESC` the outputs), every cell of the info buffer included. -/
def Obligations.FrameOfDataRows : Prop :=
  ∀ (i : Instr) (s t : State), exec i s = .next t →
    (i = .rxDataEsc ∨ (∃ b, i = .rxDataByte b) ∨ i = .rxEscLiteral) →
    t.remaining = s.remaining ∧ t.chk = s.chk ∧ t.cmdCode = s.cmdCode ∧ t.infoLen = s.infoLen ∧
    t.armed = s.armed ∧ t.count = s.count ∧ t.timeoutTicks = s.timeoutTicks ∧
    t.faulted = s.faulted ∧ t.faultField = s.faultField ∧ t.faultByte = s.faultByte ∧
    t.inbox = s.inbox ∧ t.fnResult = s.fnResult ∧
    (∀ a, Memory.read t.info a = Memory.read s.info a) ∧
    ((∃ b, i = .rxDataByte b) → t.st = s.st) ∧ (i = .rxDataEsc → t.outputs = s.outputs)

/-- What the code byte leaves as it is: `RX_ESC_CMD` and `RX_CODE` on an odd byte. -/
def Obligations.FrameOfCodeRows : Prop :=
  ∀ (i : Instr) (b : Byte) (s t : State), exec i s = .next t →
    ((i = .rxEscCmd b ∧ b.toNat % 2 = 1) ∨ i = .rxCode b) →
    t.remaining = s.remaining ∧ t.timeoutTicks = s.timeoutTicks ∧
    t.faulted = s.faulted ∧ t.faultField = s.faultField ∧ t.faultByte = s.faultByte ∧
    t.inbox = s.inbox ∧ t.outputs = s.outputs ∧ t.fnResult = s.fnResult ∧
    (∀ a, Memory.read t.info a = Memory.read s.info a) ∧
    (i = .rxCode b → t.armed = s.armed ∧ t.count = s.count)

/-- What a row that raises StructuralViolation leaves as it is: "no other register is written in this step"
(60_exceptions.md section 1; decision D8). -/
def Obligations.FrameOfViolationRows : Prop :=
  ∀ (i : Instr) (b : Byte) (s t : State), exec i s = .next t →
    (i = .rxCodeBadtag b ∨ i = .rxLenBadtag b ∨ (i = .rxEscCmd b ∧ b.toNat % 2 = 0)) →
    t.st = s.st ∧ t.remaining = s.remaining ∧ t.chk = s.chk ∧ t.cmdCode = s.cmdCode ∧
    t.infoLen = s.infoLen ∧ t.timeoutTicks = s.timeoutTicks ∧ t.inbox = s.inbox ∧
    t.fnResult = s.fnResult ∧ (∀ a, Memory.read t.info a = Memory.read s.info a)

/-- What the length byte and the checksum byte leave as it is. -/
def Obligations.FrameOfLengthAndChecksumRows : Prop :=
  ∀ (i : Instr) (b : Byte) (s t : State), exec i s = .next t →
    (i = .rxLen b ∨ i = .rxChkMatch b ∨ i = .rxChkMismatch b) →
    t.cmdCode = s.cmdCode ∧ t.infoLen = s.infoLen ∧ t.timeoutTicks = s.timeoutTicks ∧
    t.faulted = s.faulted ∧ t.faultField = s.faultField ∧ t.faultByte = s.faultByte ∧
    t.inbox = s.inbox ∧ t.fnResult = s.fnResult ∧
    (∀ a, Memory.read t.info a = Memory.read s.info a) ∧
    (i = .rxLen b → t.armed = s.armed ∧ t.count = s.count ∧ t.outputs = s.outputs) ∧
    (i ≠ .rxLen b → t.remaining = s.remaining ∧ t.chk = s.chk)

/-- What an info byte leaves as it is: the cell at `info_len` is the only one stored to. -/
def Obligations.FrameOfInfoRow : Prop :=
  ∀ (b : Byte) (s t : State), exec (.rxInfo b) s = .next t →
    t.cmdCode = s.cmdCode ∧ t.armed = s.armed ∧ t.count = s.count ∧
    t.timeoutTicks = s.timeoutTicks ∧ t.faulted = s.faulted ∧ t.faultField = s.faultField ∧
    t.faultByte = s.faultByte ∧ t.inbox = s.inbox ∧ t.outputs = s.outputs ∧
    t.fnResult = s.fnResult ∧
    (∀ a, a ≠ s.infoLen.toNat → Memory.read t.info a = Memory.read s.info a)

/-- What the timer, reset and configuration events leave as it is. -/
def Obligations.FrameOfControlEvents : Prop :=
  ∀ (i : Instr) (s t : State), exec i s = .next t →
    (i = .tick ∨ i = .parserReset ∨ i = .reset ∨ (∃ v, i = .cfgTimeout v)) →
    t.inbox = s.inbox ∧ t.fnResult = s.fnResult ∧ (i ≠ .tick → t.outputs = s.outputs) ∧
    (i = .tick ∨ i = .parserReset → t.timeoutTicks = s.timeoutTicks) ∧
    (i = .tick ∨ (∃ v, i = .cfgTimeout v) →
      t.remaining = s.remaining ∧ t.chk = s.chk ∧ t.cmdCode = s.cmdCode ∧ t.infoLen = s.infoLen ∧
      t.faulted = s.faulted ∧ t.faultField = s.faultField ∧ t.faultByte = s.faultByte ∧
      (∀ a, Memory.read t.info a = Memory.read s.info a)) ∧
    ((∃ v, i = .cfgTimeout v) → t.st = s.st ∧ t.armed = s.armed ∧ t.count = s.count)

/-- What a transmit request and a function call leave as it is: every register, every cell of the info buffer, and the outputs
emitted before; a function call emits nothing, a request touches no function result. -/
def Obligations.FrameOfEncodersAndFunctions : Prop :=
  ∀ (i : Instr) (s t : State), exec i s = .next t →
    ((∃ l, i = .txData l) ∨ (∃ p c, i = .txCmd p c) ∨
      (∃ x l, i = .fold x l) ∨ (∃ c, i = .tagDecode c) ∨ (∃ v, i = .tagEncode v)) →
    t.st = s.st ∧ t.remaining = s.remaining ∧ t.chk = s.chk ∧ t.cmdCode = s.cmdCode ∧
    t.infoLen = s.infoLen ∧ t.armed = s.armed ∧ t.count = s.count ∧
    t.timeoutTicks = s.timeoutTicks ∧ t.faulted = s.faulted ∧ t.faultField = s.faultField ∧
    t.faultByte = s.faultByte ∧ t.inbox = s.inbox ∧
    (∀ a, Memory.read t.info a = Memory.read s.info a) ∧
    ((∃ l, i = .txData l) ∨ (∃ p c, i = .txCmd p c) → t.fnResult = s.fnResult) ∧
    ((∃ x l, i = .fold x l) ∨ (∃ c, i = .tagDecode c) ∨ (∃ v, i = .tagEncode v) →
      t.outputs = s.outputs)

/-! ## Rules of the whole machine -/

/-- The invariant holds after reset. -/
def Obligations.ResetMeetsTheInvariant : Prop := State.reset.Inv

/-- Every step from a state that meets the invariant (reachable or not) gives a state that meets it: 10_state.md section 7, which
the spec marks as derived, in the registers' own terms. -/
def Obligations.EveryStepKeepsTheInvariant : Prop :=
  ∀ s t : State, s.Inv → step s = .next t → t.Inv

/-- What holds of every reachable state, in the spec's words: `CommandCode` and the reserved codes are never held; `armed` exactly
in a frame without a fault; `TIMER` reads 0 when not armed; `remaining` and `info_len` within their bounds; an index the FSM
writes is a cell of the buffer (10_state.md sections 2, 5 and 7, 20_memory.md section 1). -/
def Obligations.ReachableStatesMeetTheSpecsInvariants : Prop :=
  ∀ s : State, Reachable s →
    (s.st ≠ .commandCode ∧ s.st ≠ .reserved6 ∧ s.st ≠ .reserved7) ∧
    (s.armed = true ↔ s.faulted = false ∧
      (s.st = .commandLength ∨ s.st = .commandInfo ∨ s.st = .commandChecksum)) ∧
    (s.armed = false → timerView s = 0) ∧
    (s.st = .commandInfo → 1 ≤ s.remaining.toNat ∧ s.infoLen.toNat < 127) ∧
    (s.st = .commandChecksum → s.remaining = 0) ∧
    s.faultField ≠ 3

/-- From a state that meets the invariant a step ends in a next state, or in `stuck` (a pending `RX` while faulted), or in the
refusal of a reserved event kind, and in nothing else (00_scope.md section 6, which the spec marks as derived). -/
def Obligations.StepsStopOnlyAsNamed : Prop :=
  ∀ s : State, s.Inv →
    (∃ t, step s = .next t) ∨
    (∃ b rest, s.inbox = .rx b :: rest ∧ s.faulted = true ∧ step s = .fault .stuck) ∨
    (∃ k rest, s.inbox = .reserved k :: rest ∧
      step s = .refused (.reservedEventKind (BitVec.ofNat 4 (7 + k.val))))

/-- A step never takes back or changes an event it has emitted, and adds at most one: no row, event or error of
42_stream_parser.md sections 2 and 3, 43_frame_codec.md, 44_timer_and_control.md and 60_exceptions.md section 1 emits more. That
the events emitted stand in `outputs`, and stay there across the resets, is the model's choice (log entry 2). -/
def Obligations.OutputsOnlyGrow : Prop :=
  ∀ s t : State, step s = .next t →
    ∃ new, t.outputs = s.outputs ++ new ∧ new.length ≤ 1

/-- Only a StructuralViolation sets `faulted`, and the step that does so reports it, with the byte and the field it records; the
cause codes of the three kinds of error differ (60_exceptions.md section 1; the codes are the spec's own decision D14). -/
def Obligations.OnlyViolationsSetFaulted : Prop :=
  (∀ (i : Instr) (s t : State), exec i s = .next t → s.faulted = false → t.faulted = true →
    ∃ f : StructField, t.outputs = s.outputs ++ [.diag (.structuralViolation f t.faultByte)] ∧
      t.faultField = f.bits ∧ t.armed = false ∧ t.count = 0) ∧
  ∀ (f : StructField) (b : Byte) (c n : Value) (l : List Byte),
    (Diag.structuralViolation f b).cause ≠ (Diag.checksumMismatch c n l).cause ∧
    (Diag.structuralViolation f b).cause ≠ Diag.parseTimeout.cause ∧
    (Diag.checksumMismatch c n l).cause ≠ Diag.parseTimeout.cause

/-- The fault record changes in a faulted state only by `PARSER_RESET` or `RESET`, and no error is reported while it stands
(10_state.md section 4, 60_exceptions.md section 2; decisions D8 and D9). -/
def Obligations.FaultIsLeftOnlyByAReset : Prop :=
  ∀ (i : Instr) (s t : State), exec i s = .next t → s.faulted = true →
    i ≠ .parserReset → i ≠ .reset → s.armed = false →
    t.faulted = true ∧ t.faultField = s.faultField ∧ t.faultByte = s.faultByte ∧
    ∀ d : Diag, t.outputs ≠ s.outputs ++ [.diag d]

/-- Tag-bit rejection (42_stream_parser.md section 4; that a reset alone lifts the fault is the spec's own decision D8): an even code
byte or length byte gives exactly one report and neither `DATA` nor `CMD`, and after it every `RX` is stuck for as long as no
reset is delivered. -/
def Obligations.TagRejectionHoldsUntilReset : Prop :=
  ∀ (s : State) (b : Byte), s.faulted = false → b.toNat % 2 = 0 →
    (s.st = .escaping ∨ s.st = .commandLength) →
    ∃ (f : StructField) (t : State), deliver (.rx b) s = .next t ∧
      t.outputs = s.outputs ++ [.diag (.structuralViolation f b)] ∧
      (f = .code ↔ s.st = .escaping) ∧
      ∀ (es : List Event) (u : State), Event.parserReset ∉ es → Event.reset ∉ es →
        deliverAll es t = .next u → ∀ c, deliver (.rx c) u = .fault .stuck

/-- R170: the timer is armed by `RX_ESC_CMD` and by nothing else, with the whole period; it is not pending when that row runs in a
state that meets the invariant, and the bytes of a frame do not restart it. -/
def Obligations.TimerIsArmedOnlyByTheCodeByte : Prop :=
  (∀ (s : State) (b : Byte), s.faulted = false → b.toNat % 2 = 1 →
    ∃ t, exec (.rxEscCmd b) s = .next t ∧ t.armed = true ∧ t.count = s.timeoutTicks) ∧
  (∀ (i : Instr) (s t : State), exec i s = .next t → s.armed = false → t.armed = true →
    ∃ b, i = .rxEscCmd b) ∧
  (∀ s : State, s.Inv → s.st = .escaping → s.armed = false) ∧
  (∀ (b : Byte) (s t : State), exec (.rxLen b) s = .next t ∨ exec (.rxInfo b) s = .next t →
    t.armed = s.armed ∧ t.count = s.count)

/-- `timeout_ticks` is written by `CFG_TIMEOUT` and `RESET` only, and a pending count is not (10_state.md section 4,
44_timer_and_control.md section 2; decision D6). -/
def Obligations.PeriodIsWrittenOnlyByConfiguration : Prop :=
  ∀ (i : Instr) (s t : State), exec i s = .next t → t.timeoutTicks ≠ s.timeoutTicks →
    i = .reset ∨ ∃ v, i = .cfgTimeout v ∧ t.timeoutTicks = v ∧ t.count = s.count ∧ t.armed = s.armed

/-- One outcome per frame, step by step: an event delivered while a frame is in progress keeps it in progress and emits no `DATA`,
no `CMD` and no `DIAG`, or ends it with exactly one `CMD` or `DIAG`, or is a reset that ends it with no output
(42_stream_parser.md section 4, which the spec marks as derived). -/
def Obligations.OneOutcomePerFrame : Prop :=
  ∀ (e : Event) (s t : State), s.Inv → s.faulted = false → s.st.inFrame = true →
    deliver e s = .next t →
    (t.st.inFrame = true ∧ t.faulted = false ∧
      (t.outputs = s.outputs ∨ ∃ bytes, t.outputs = s.outputs ++ [.tx bytes])) ∨
    ((t.st = .data ∨ t.faulted = true) ∧
      ∃ o, t.outputs = s.outputs ++ [o] ∧ endsFrame o = true) ∨
    ((e = .parserReset ∨ e = .reset) ∧ t.st = .data ∧ t.outputs = s.outputs)

/-- Data round trip, with `TICK`s anywhere among the bytes (42_stream_parser.md section 4, which the spec marks as derived); the
timer is not pending in data mode, an invariant of reachable states. -/
def Obligations.DataRoundTrip : Prop :=
  ∀ (s : State) (bytes : List Byte) (es : List Event),
    s.st = .data → s.faulted = false → s.armed = false →
    es.all isRxOrTick = true → rxBytesOf es = encodeData bytes →
    deliverAll es s = .next { s with outputs := s.outputs ++ bytes.map OutEvent.data }

/-- Command round trip, intact and corrupted, with `TICK`s anywhere and fewer than `max(timeout_ticks, 1)` of them between the
code byte and the checksum byte (42_stream_parser.md section 4, which the spec marks as derived). `before` holds the sentinel,
`during` the frame from its code byte on. -/
def Obligations.CommandRoundTrip : Prop :=
  ∀ (s : State) (code : Nat) (info payload : List Byte) (corrupt : Bool) (before during : List Event),
    s.st = .data → s.faulted = false → s.armed = false → Memory.wf s.info = true →
    code ≤ 126 → info.length ≤ 127 → commandPayload code info = some payload →
    before.all isRxOrTick = true → during.all isRxOrTick = true →
    rxBytesOf before = [0xFF] →
    rxBytesOf during = payload ++ [frameChecksum payload corrupt] →
    ticksIn during < max s.timeoutTicks.toNat 1 →
    encodeCommand payload corrupt = rxBytesOf (before ++ during) ∧
    ∃ t, deliverAll (before ++ during) s = .next t ∧ t.st = .data ∧ t.armed = false ∧
      t.faulted = false ∧
      t.outputs = s.outputs ++
        [if corrupt = true then
          .diag (.checksumMismatch (BitVec.ofNat 7 code) (BitVec.ofNat 7 info.length) info)
        else .cmd (BitVec.ofNat 7 code) info]

/-- A frame whose structure is intact is delivered exactly when its bytes after the sentinel fold to 0, whatever errors its info
and checksum bytes carry; otherwise one mismatch is reported (41_checksum_and_tag.md section 3, 70_reset_and_hazards.md section
2, which the spec marks as derived). -/
def Obligations.FrameIsAcceptedWhenItFoldsToZero : Prop :=
  ∀ (s : State) (c n k : Byte) (info : List Byte),
    s.st = .data → s.faulted = false → Memory.wf s.info = true →
    c ≠ 0xFF → c.toNat % 2 = 1 → n.toNat = 2 * info.length + 1 →
    ∃ t, deliverAll (rxEvents ([0xFF, c, n] ++ info ++ [k])) s = .next t ∧ t.st = .data ∧
      t.outputs = s.outputs ++
        [if fold 0xFF ([c, n] ++ info ++ [k]) = 0 then .cmd (c.extractLsb' 1 7) info
        else .diag (.checksumMismatch (c.extractLsb' 1 7) (BitVec.ofNat 7 info.length) info)]

/-- What the receiver makes of the encoder's frames of empty and one-byte payloads and of code 127 (43_frame_codec.md section 2,
30_encoding.md section 3, which the spec marks as derived). -/
def Obligations.ShortAndUnencodableFrames : Prop :=
  ∀ s : State, s.st = .data → s.faulted = false →
    deliverAll (rxEvents (encodeCommand [] false)) s =
      .next { s with outputs := s.outputs ++ [.data 0xFF] } ∧
    (∃ t, deliverAll (rxEvents (encodeCommand [] true)) s = .next t ∧ t.faulted = true ∧
      t.outputs = s.outputs ++ [.diag (.structuralViolation .code 0x00)]) ∧
    (∀ k : Byte, k ≠ 0xFF → k.toNat % 2 = 1 →
      (∃ t, deliverAll (rxEvents (encodeCommand [k] false)) s = .next t ∧ t.faulted = true ∧
        t.outputs = s.outputs ++ [.diag (.structuralViolation .length (k ^^^ 0xFF))]) ∧
      (∃ t, deliverAll (rxEvents (encodeCommand [k] true)) s = .next t ∧ t.faulted = false ∧
        t.outputs = s.outputs ∧ t.armed = true ∧ t.remaining = k.extractLsb' 1 7 ∧
        t.st = if k = 0x01 then .commandChecksum else .commandInfo)) ∧
    (∀ (rest : List Byte) (corrupt : Bool), ∃ tail,
      encodeCommand (0xFF :: rest) corrupt = [0xFF, 0xFF] ++ tail ∧
      deliverAll (rxEvents [0xFF, 0xFF]) s = .next { s with outputs := s.outputs ++ [.data 0xFF] })

/-- What a frame left behind is never observed (10_state.md section 7, R37, and 93 W1 to W3, which the spec marks as derived): two
states in data mode that differ only in `remaining`, `chk`, `cmd_code`, `info_len` and `info` emit the same outputs, and show
the same views, under every sequence of events that the first gets through. -/
def Obligations.StaleRegistersAreNeverObserved : Prop :=
  ∀ (s : State) (remaining : Value) (chk : Byte) (cmdCode infoLen : Value) (info : Memory)
    (es : List Event) (t : State),
    (s.st = .data ∨ s.st = .escaping) → Memory.wf s.info = true → Memory.wf info = true →
    deliverAll es s = .next t →
    ∃ u, deliverAll es
        { s with
          remaining := remaining, chk := chk, cmdCode := cmdCode, infoLen := infoLen,
          info := info } = .next u ∧
      u.outputs = t.outputs ∧ statusView u = statusView t ∧
      faultInfoView u = faultInfoView t ∧ timerView u = timerView t ∧
      cfgTimeoutView u = cfgTimeoutView t

/-- The transmitted stream is the concatenation of the `TX` outputs in request order, each contiguous, whatever receive events
come between (20_memory.md sections 1 and 3; the spec's own decision D15). -/
def Obligations.TransmittedStreamIsInRequestOrder : Prop :=
  ∀ (e : Event) (s t : State), deliver e s = .next t →
    txStream t.outputs = txStream s.outputs ++
      match e with
      | .txData bytes => encodeData bytes
      | .txCmd payload corrupt => encodeCommand payload corrupt
      | .rx _ | .tick | .parserReset | .reset | .cfgTimeout _ | .reserved _ => []
end

