-- ==== Sys2Proof/Laws/Memory.lean ====
section
/-! SUPPORT. The laws of the info buffer: what a read gives after a write, and that every operation keeps the canonical form. -/

namespace Sys2Proof.Machine

@[simp] theorem Memory.read_nil (i : Nat) : Memory.read [] i = 0#8 := rfl

theorem Memory.read_cons (j : Nat) (w : Byte) (m : Memory) (i : Nat) :
    Memory.read ((j, w) :: m) i = if i = j then w else Memory.read m i := rfl

/-- Below the first index a canonical buffer may list, every read gives 0x00. -/
theorem Memory.read_of_lt {m : Memory} {lo i : Nat} (hm : Memory.wfFrom lo m = true) (hi : i < lo) :
    Memory.read m i = 0#8 := by
  induction m generalizing lo with
  | nil => rfl
  | cons c m ih =>
    obtain ⟨j, w⟩ := c
    simp only [Memory.wfFrom, Bool.and_eq_true, decide_eq_true_eq] at hm
    rw [Memory.read_cons, if_neg (by omega), ih hm.2 (by omega)]

/-- A canonical buffer that may list from `lo` may list from any lower index. -/
theorem Memory.wfFrom_mono {m : Memory} {lo lo' : Nat} (hm : Memory.wfFrom lo m = true)
    (h : lo' ≤ lo) : Memory.wfFrom lo' m = true := by
  cases m with
  | nil => rfl
  | cons c m =>
    obtain ⟨j, w⟩ := c
    simp only [Memory.wfFrom, Bool.and_eq_true, decide_eq_true_eq] at hm ⊢
    exact ⟨⟨⟨by omega, hm.1.1.2⟩, hm.1.2⟩, hm.2⟩

/-- A read at the index written gives the byte written. -/
theorem Memory.read_write_same {m : Memory} {lo : Nat} (hm : Memory.wfFrom lo m = true) (i : Nat)
    (v : Byte) : Memory.read (Memory.write m i v) i = v := by
  induction m generalizing lo with
  | nil => by_cases hv : v = 0#8 <;> simp [Memory.write, Memory.read, hv]
  | cons c m ih =>
    obtain ⟨j, w⟩ := c
    simp only [Memory.wfFrom, Bool.and_eq_true, decide_eq_true_eq] at hm
    have rest := Memory.read_of_lt (i := i) hm.2
    rcases lt_trichotomy i j with hij | rfl | hij
    · by_cases hv : v = 0#8
      · simp [Memory.write, Memory.read, hij, hv, hij.ne, rest (by omega)]
      · simp [Memory.write, Memory.read, hij, hv]
    · by_cases hv : v = 0#8
      · simp [Memory.write, hv, rest (by omega)]
      · simp [Memory.write, Memory.read, hv]
    · simp [Memory.write, Memory.read, hij.ne', hij.not_gt, ih hm.2]

/-- A read at any other index gives what it gave before. -/
theorem Memory.read_write_other (m : Memory) {i k : Nat} (v : Byte) (hk : k ≠ i) :
    Memory.read (Memory.write m i v) k = Memory.read m k := by
  induction m with
  | nil => by_cases hv : v = 0#8 <;> simp [Memory.write, Memory.read, hv, hk]
  | cons c m ih =>
    obtain ⟨j, w⟩ := c
    rcases lt_trichotomy i j with hij | rfl | hij
    · by_cases hv : v = 0#8 <;> simp [Memory.write, Memory.read, hij, hv, hk]
    · by_cases hv : v = 0#8 <;> simp [Memory.write, Memory.read, hv, hk]
    · simp [Memory.write, Memory.read, hij.ne', hij.not_gt, ih]

/-- A write keeps the canonical form from any index the write is not below. -/
theorem Memory.wfFrom_write {m : Memory} {lo i : Nat} (v : Byte) (hm : Memory.wfFrom lo m = true)
    (hlo : lo ≤ i) (hi : i < Config.infoCap) : Memory.wfFrom lo (Memory.write m i v) = true := by
  induction m generalizing lo with
  | nil => by_cases hv : v = 0#8 <;> simp [Memory.write, Memory.wfFrom, hv, hlo, hi]
  | cons c m ih =>
    obtain ⟨j, w⟩ := c
    have hm' := hm
    simp only [Memory.wfFrom, Bool.and_eq_true, decide_eq_true_eq, bne_iff_ne] at hm'
    obtain ⟨⟨⟨h1, h2⟩, h3⟩, h4⟩ := hm'
    rcases lt_trichotomy i j with hij | rfl | hij
    · by_cases hv : v = 0#8
      · simpa [Memory.write, hij, hv] using hm
      · simp [Memory.write, Memory.wfFrom, hij, hv, hlo, hi, h2, h3, h4, Nat.succ_le_of_lt hij]
    · by_cases hv : v = 0#8
      · simpa [Memory.write, hv] using Memory.wfFrom_mono h4 (by omega)
      · simp [Memory.write, Memory.wfFrom, hv, hlo, hi, h4]
    · simp [Memory.write, Memory.wfFrom, hij.ne', hij.not_gt, h1, h2, h3, ih h4 hij]

/-- `InfoWrite` keeps the canonical form. -/
theorem Memory.wf_write {m : Memory} {i : Nat} (v : Byte) (hm : Memory.wf m = true)
    (hi : i < Config.infoCap) : Memory.wf (Memory.write m i v) = true :=
  Memory.wfFrom_write v hm (Nat.zero_le i) hi

/-- The buffer after reset is in its canonical form. -/
theorem Memory.wf_reset : Memory.wf State.reset.info = true := rfl

/-- A canonical buffer that reads 0x00 everywhere lists nothing. -/
theorem Memory.eq_nil_of_read {m : Memory} {lo : Nat} (hm : Memory.wfFrom lo m = true)
    (h : ∀ i, Memory.read m i = 0#8) : m = [] := by
  cases m with
  | nil => rfl
  | cons c m =>
    obtain ⟨j, w⟩ := c
    simp only [Memory.wfFrom, Bool.and_eq_true, bne_iff_ne] at hm
    exact absurd (by simpa [Memory.read] using h j) hm.1.2

/-- Two canonical buffers that read alike are equal. -/
theorem Memory.ext_of_read {m m' : Memory} {lo lo' : Nat} (hm : Memory.wfFrom lo m = true)
    (hm' : Memory.wfFrom lo' m' = true) (h : ∀ i, Memory.read m i = Memory.read m' i) : m = m' := by
  induction m generalizing lo lo' m' with
  | nil => exact (Memory.eq_nil_of_read hm' fun i => (h i).symm).symm
  | cons c m ih =>
    obtain ⟨j, w⟩ := c
    cases m' with
    | nil => exact Memory.eq_nil_of_read hm h
    | cons c' m' =>
      obtain ⟨j', w'⟩ := c'
      simp only [Memory.wfFrom, Bool.and_eq_true, decide_eq_true_eq, bne_iff_ne] at hm hm'
      have low : ∀ {n : Memory} {k i : Nat}, Memory.wfFrom (k + 1) n = true → i ≤ k →
          Memory.read n i = 0#8 := fun hn hi => Memory.read_of_lt hn (by omega)
      have hj : j = j' := by
        rcases lt_trichotomy j j' with hlt | heq | hgt
        · have := h j
          simp only [Memory.read, if_true, if_neg hlt.ne, low hm'.2 hlt.le] at this
          exact absurd this hm.1.2
        · exact heq
        · have := h j'
          simp only [Memory.read, if_true, if_neg hgt.ne, low hm.2 hgt.le] at this
          exact absurd this.symm hm'.1.2
      subst hj
      have hw : w = w' := by simpa [Memory.read] using h j
      subst hw
      refine congrArg _ (ih hm.2 hm'.2 fun i => ?_)
      by_cases hi : i = j
      · rw [hi, low hm.2 le_rfl, low hm'.2 le_rfl]
      · simpa [Memory.read, hi] using h i

/-- `InfoWrite` at a cell of the buffer: the state with the byte stored. -/
theorem State.infoWrite_of_lt {s : State} {i : Nat} (v : Byte) (hi : i < Config.infoCap) :
    s.infoWrite i v = some { s with info := Memory.write s.info i v } := if_pos hi

/-- `InfoWrite` at no cell of the buffer. -/
theorem State.infoWrite_of_ge {s : State} {i : Nat} (v : Byte) (hi : Config.infoCap ≤ i) :
    s.infoWrite i v = none := if_neg (by omega)

/-- One more info byte: the list grows by what the next cell reads. -/
theorem infoList_succ (m : Memory) (n : Nat) :
    (List.range (n + 1)).map (Memory.read m) =
      (List.range n).map (Memory.read m) ++ [Memory.read m n] := by
  simp [List.range_succ]

/-- The info bytes before an index do not depend on what is written at it. -/
theorem infoList_write (m : Memory) (n : Nat) (v : Byte) :
    (List.range n).map (Memory.read (Memory.write m n v)) = (List.range n).map (Memory.read m) :=
  List.map_congr_left fun k hk =>
    Memory.read_write_other m v (by have := List.mem_range.mp hk; omega)

end Sys2Proof.Machine
end

