-- ==== Sys2Proof/Laws/Operands.lean ====
section
/-! SUPPORT. What the combinational units do on the shapes later proofs meet. -/

namespace Sys2Proof.Machine

@[simp] theorem fold_nil (seed : Byte) : fold seed [] = seed := rfl

@[simp] theorem fold_cons (seed b : Byte) (bytes : List Byte) :
    fold seed (b :: bytes) = fold (seed ^^^ b) bytes := rfl

/-- The tag bit is the parity of the byte (30_encoding.md R71: the test is on `c[0]` only). -/
theorem tagBit_eq (b : Byte) : tagBit b = decide (b.toNat % 2 = 1) := by
  simp [tagBit, BitVec.getLsbD, Nat.testBit_zero]

@[simp] theorem tagBit_tagByte (v : Value) : tagBit (tagByte v) = true := by
  revert v; decide

@[simp] theorem tagValue_tagByte (v : Value) : tagValue (tagByte v) = v := by
  revert v; decide

/-- A structural byte with its tag bit set is the tagged byte of its value. -/
theorem tagByte_tagValue {b : Byte} (hb : tagBit b = true) : tagByte (tagValue b) = b := by
  revert b; decide

/-- The only tagged byte equal to the sentinel is that of 127 (30_encoding.md R76). -/
theorem tagValue_le_of_ne_sentinel {b : Byte} (hb : tagBit b = true) (hs : b ≠ Config.sentinel) :
    (tagValue b).toNat ≤ Config.maxCodeEncodable := by
  revert b; decide

/-- `TAG_ENCODE` on its domain is the tagged byte. -/
theorem tagEncode_of_lt {v : Nat} (hv : v < 128) :
    tagEncode v = some (tagByte (BitVec.ofNat 7 v)) := by
  revert v; decide

theorem tagEncode_of_ge {v : Nat} (hv : 128 ≤ v) : tagEncode v = none :=
  if_neg (Nat.not_lt.mpr hv)

@[simp] theorem encodeData_nil : encodeData [] = [] := rfl

@[simp] theorem encodeData_sentinel (bytes : List Byte) :
    encodeData (Config.sentinel :: bytes) =
      Config.sentinel :: Config.sentinel :: encodeData bytes := rfl

theorem encodeData_other {b : Byte} (hb : b ≠ Config.sentinel) (bytes : List Byte) :
    encodeData (b :: bytes) = b :: encodeData bytes := if_neg hb

end Sys2Proof.Machine
end

