-- ==== Sys2Proof/Laws/State.lean ====
section
/-! SUPPORT. One lemma per field per named update of the state, true by unfolding, so that no later proof unfolds a record
update. -/

namespace Sys2Proof.Machine

variable (s : State)

/-! ### `State.goto` -/

@[simp] theorem State.goto_st (x : Fsm) : (s.goto x).st = x := rfl
@[simp] theorem State.goto_remaining (x : Fsm) : (s.goto x).remaining = s.remaining := rfl
@[simp] theorem State.goto_chk (x : Fsm) : (s.goto x).chk = s.chk := rfl
@[simp] theorem State.goto_cmdCode (x : Fsm) : (s.goto x).cmdCode = s.cmdCode := rfl
@[simp] theorem State.goto_infoLen (x : Fsm) : (s.goto x).infoLen = s.infoLen := rfl
@[simp] theorem State.goto_info (x : Fsm) : (s.goto x).info = s.info := rfl
@[simp] theorem State.goto_armed (x : Fsm) : (s.goto x).armed = s.armed := rfl
@[simp] theorem State.goto_count (x : Fsm) : (s.goto x).count = s.count := rfl
@[simp] theorem State.goto_timeoutTicks (x : Fsm) : (s.goto x).timeoutTicks = s.timeoutTicks := rfl
@[simp] theorem State.goto_faulted (x : Fsm) : (s.goto x).faulted = s.faulted := rfl
@[simp] theorem State.goto_faultField (x : Fsm) : (s.goto x).faultField = s.faultField := rfl
@[simp] theorem State.goto_faultByte (x : Fsm) : (s.goto x).faultByte = s.faultByte := rfl
@[simp] theorem State.goto_inbox (x : Fsm) : (s.goto x).inbox = s.inbox := rfl
@[simp] theorem State.goto_outputs (x : Fsm) : (s.goto x).outputs = s.outputs := rfl
@[simp] theorem State.goto_fnResult (x : Fsm) : (s.goto x).fnResult = s.fnResult := rfl

/-! ### `State.emit` -/

@[simp] theorem State.emit_st (e : OutEvent) : (s.emit e).st = s.st := rfl
@[simp] theorem State.emit_remaining (e : OutEvent) : (s.emit e).remaining = s.remaining := rfl
@[simp] theorem State.emit_chk (e : OutEvent) : (s.emit e).chk = s.chk := rfl
@[simp] theorem State.emit_cmdCode (e : OutEvent) : (s.emit e).cmdCode = s.cmdCode := rfl
@[simp] theorem State.emit_infoLen (e : OutEvent) : (s.emit e).infoLen = s.infoLen := rfl
@[simp] theorem State.emit_info (e : OutEvent) : (s.emit e).info = s.info := rfl
@[simp] theorem State.emit_armed (e : OutEvent) : (s.emit e).armed = s.armed := rfl
@[simp] theorem State.emit_count (e : OutEvent) : (s.emit e).count = s.count := rfl
@[simp] theorem State.emit_timeoutTicks (e : OutEvent) : (s.emit e).timeoutTicks = s.timeoutTicks := rfl
@[simp] theorem State.emit_faulted (e : OutEvent) : (s.emit e).faulted = s.faulted := rfl
@[simp] theorem State.emit_faultField (e : OutEvent) : (s.emit e).faultField = s.faultField := rfl
@[simp] theorem State.emit_faultByte (e : OutEvent) : (s.emit e).faultByte = s.faultByte := rfl
@[simp] theorem State.emit_inbox (e : OutEvent) : (s.emit e).inbox = s.inbox := rfl
@[simp] theorem State.emit_outputs (e : OutEvent) : (s.emit e).outputs = s.outputs ++ [e] := rfl
@[simp] theorem State.emit_fnResult (e : OutEvent) : (s.emit e).fnResult = s.fnResult := rfl

/-! ### `State.answer` -/

@[simp] theorem State.answer_st (r : FnResult) : (s.answer r).st = s.st := rfl
@[simp] theorem State.answer_remaining (r : FnResult) : (s.answer r).remaining = s.remaining := rfl
@[simp] theorem State.answer_chk (r : FnResult) : (s.answer r).chk = s.chk := rfl
@[simp] theorem State.answer_cmdCode (r : FnResult) : (s.answer r).cmdCode = s.cmdCode := rfl
@[simp] theorem State.answer_infoLen (r : FnResult) : (s.answer r).infoLen = s.infoLen := rfl
@[simp] theorem State.answer_info (r : FnResult) : (s.answer r).info = s.info := rfl
@[simp] theorem State.answer_armed (r : FnResult) : (s.answer r).armed = s.armed := rfl
@[simp] theorem State.answer_count (r : FnResult) : (s.answer r).count = s.count := rfl
@[simp] theorem State.answer_timeoutTicks (r : FnResult) : (s.answer r).timeoutTicks = s.timeoutTicks := rfl
@[simp] theorem State.answer_faulted (r : FnResult) : (s.answer r).faulted = s.faulted := rfl
@[simp] theorem State.answer_faultField (r : FnResult) : (s.answer r).faultField = s.faultField := rfl
@[simp] theorem State.answer_faultByte (r : FnResult) : (s.answer r).faultByte = s.faultByte := rfl
@[simp] theorem State.answer_inbox (r : FnResult) : (s.answer r).inbox = s.inbox := rfl
@[simp] theorem State.answer_outputs (r : FnResult) : (s.answer r).outputs = s.outputs := rfl
@[simp] theorem State.answer_fnResult (r : FnResult) : (s.answer r).fnResult = some r := rfl

/-! ### `State.arm` -/

@[simp] theorem State.arm_st : s.arm.st = s.st := rfl
@[simp] theorem State.arm_remaining : s.arm.remaining = s.remaining := rfl
@[simp] theorem State.arm_chk : s.arm.chk = s.chk := rfl
@[simp] theorem State.arm_cmdCode : s.arm.cmdCode = s.cmdCode := rfl
@[simp] theorem State.arm_infoLen : s.arm.infoLen = s.infoLen := rfl
@[simp] theorem State.arm_info : s.arm.info = s.info := rfl
@[simp] theorem State.arm_armed : s.arm.armed = true := rfl
@[simp] theorem State.arm_count : s.arm.count = s.timeoutTicks := rfl
@[simp] theorem State.arm_timeoutTicks : s.arm.timeoutTicks = s.timeoutTicks := rfl
@[simp] theorem State.arm_faulted : s.arm.faulted = s.faulted := rfl
@[simp] theorem State.arm_faultField : s.arm.faultField = s.faultField := rfl
@[simp] theorem State.arm_faultByte : s.arm.faultByte = s.faultByte := rfl
@[simp] theorem State.arm_inbox : s.arm.inbox = s.inbox := rfl
@[simp] theorem State.arm_outputs : s.arm.outputs = s.outputs := rfl
@[simp] theorem State.arm_fnResult : s.arm.fnResult = s.fnResult := rfl

/-! ### `State.cancel` -/

@[simp] theorem State.cancel_st : s.cancel.st = s.st := rfl
@[simp] theorem State.cancel_remaining : s.cancel.remaining = s.remaining := rfl
@[simp] theorem State.cancel_chk : s.cancel.chk = s.chk := rfl
@[simp] theorem State.cancel_cmdCode : s.cancel.cmdCode = s.cmdCode := rfl
@[simp] theorem State.cancel_infoLen : s.cancel.infoLen = s.infoLen := rfl
@[simp] theorem State.cancel_info : s.cancel.info = s.info := rfl
@[simp] theorem State.cancel_armed : s.cancel.armed = false := rfl
@[simp] theorem State.cancel_count : s.cancel.count = 0 := rfl
@[simp] theorem State.cancel_timeoutTicks : s.cancel.timeoutTicks = s.timeoutTicks := rfl
@[simp] theorem State.cancel_faulted : s.cancel.faulted = s.faulted := rfl
@[simp] theorem State.cancel_faultField : s.cancel.faultField = s.faultField := rfl
@[simp] theorem State.cancel_faultByte : s.cancel.faultByte = s.faultByte := rfl
@[simp] theorem State.cancel_inbox : s.cancel.inbox = s.inbox := rfl
@[simp] theorem State.cancel_outputs : s.cancel.outputs = s.outputs := rfl
@[simp] theorem State.cancel_fnResult : s.cancel.fnResult = s.fnResult := rfl

/-! ### `State.raiseViolation` -/

@[simp] theorem State.raiseViolation_st (f : StructField) (b : Byte) : (s.raiseViolation f b).st = s.st := rfl
@[simp] theorem State.raiseViolation_remaining (f : StructField) (b : Byte) :
    (s.raiseViolation f b).remaining = s.remaining := rfl
@[simp] theorem State.raiseViolation_chk (f : StructField) (b : Byte) : (s.raiseViolation f b).chk = s.chk := rfl
@[simp] theorem State.raiseViolation_cmdCode (f : StructField) (b : Byte) :
    (s.raiseViolation f b).cmdCode = s.cmdCode := rfl
@[simp] theorem State.raiseViolation_infoLen (f : StructField) (b : Byte) :
    (s.raiseViolation f b).infoLen = s.infoLen := rfl
@[simp] theorem State.raiseViolation_info (f : StructField) (b : Byte) : (s.raiseViolation f b).info = s.info := rfl
@[simp] theorem State.raiseViolation_armed (f : StructField) (b : Byte) : (s.raiseViolation f b).armed = false := rfl
@[simp] theorem State.raiseViolation_count (f : StructField) (b : Byte) : (s.raiseViolation f b).count = 0 := rfl
@[simp] theorem State.raiseViolation_timeoutTicks (f : StructField) (b : Byte) :
    (s.raiseViolation f b).timeoutTicks = s.timeoutTicks := rfl
@[simp] theorem State.raiseViolation_faulted (f : StructField) (b : Byte) :
    (s.raiseViolation f b).faulted = true := rfl
@[simp] theorem State.raiseViolation_faultField (f : StructField) (b : Byte) :
    (s.raiseViolation f b).faultField = f.bits := rfl
@[simp] theorem State.raiseViolation_faultByte (f : StructField) (b : Byte) :
    (s.raiseViolation f b).faultByte = b := rfl
@[simp] theorem State.raiseViolation_inbox (f : StructField) (b : Byte) : (s.raiseViolation f b).inbox = s.inbox := rfl
@[simp] theorem State.raiseViolation_outputs (f : StructField) (b : Byte) :
    (s.raiseViolation f b).outputs = s.outputs ++ [.diag (.structuralViolation f b)] := rfl
@[simp] theorem State.raiseViolation_fnResult (f : StructField) (b : Byte) :
    (s.raiseViolation f b).fnResult = s.fnResult := rfl

/-! ### `State.parserReset` -/

@[simp] theorem State.parserReset_st : s.parserReset.st = .data := rfl
@[simp] theorem State.parserReset_remaining : s.parserReset.remaining = 0 := rfl
@[simp] theorem State.parserReset_chk : s.parserReset.chk = 0xFF := rfl
@[simp] theorem State.parserReset_cmdCode : s.parserReset.cmdCode = 0 := rfl
@[simp] theorem State.parserReset_infoLen : s.parserReset.infoLen = 0 := rfl
@[simp] theorem State.parserReset_info : s.parserReset.info = [] := rfl
@[simp] theorem State.parserReset_armed : s.parserReset.armed = false := rfl
@[simp] theorem State.parserReset_count : s.parserReset.count = 0 := rfl
@[simp] theorem State.parserReset_timeoutTicks : s.parserReset.timeoutTicks = s.timeoutTicks := rfl
@[simp] theorem State.parserReset_faulted : s.parserReset.faulted = false := rfl
@[simp] theorem State.parserReset_faultField : s.parserReset.faultField = 0 := rfl
@[simp] theorem State.parserReset_faultByte : s.parserReset.faultByte = 0x00 := rfl
@[simp] theorem State.parserReset_inbox : s.parserReset.inbox = s.inbox := rfl
@[simp] theorem State.parserReset_outputs : s.parserReset.outputs = s.outputs := rfl
@[simp] theorem State.parserReset_fnResult : s.parserReset.fnResult = s.fnResult := rfl

/-! ### `State.expire` -/

@[simp] theorem State.expire_st : s.expire.st = .data := rfl
@[simp] theorem State.expire_remaining : s.expire.remaining = s.remaining := rfl
@[simp] theorem State.expire_chk : s.expire.chk = s.chk := rfl
@[simp] theorem State.expire_cmdCode : s.expire.cmdCode = s.cmdCode := rfl
@[simp] theorem State.expire_infoLen : s.expire.infoLen = s.infoLen := rfl
@[simp] theorem State.expire_info : s.expire.info = s.info := rfl
@[simp] theorem State.expire_armed : s.expire.armed = false := rfl
@[simp] theorem State.expire_count : s.expire.count = 0 := rfl
@[simp] theorem State.expire_timeoutTicks : s.expire.timeoutTicks = s.timeoutTicks := rfl
@[simp] theorem State.expire_faulted : s.expire.faulted = s.faulted := rfl
@[simp] theorem State.expire_faultField : s.expire.faultField = s.faultField := rfl
@[simp] theorem State.expire_faultByte : s.expire.faultByte = s.faultByte := rfl
@[simp] theorem State.expire_inbox : s.expire.inbox = s.inbox := rfl
@[simp] theorem State.expire_outputs : s.expire.outputs = s.outputs ++ [.diag .parseTimeout] := rfl
@[simp] theorem State.expire_fnResult : s.expire.fnResult = s.fnResult := rfl

/-! ### `State.takeCode` -/

@[simp] theorem State.takeCode_st (b : Byte) : (s.takeCode b).st = .commandLength := rfl
@[simp] theorem State.takeCode_remaining (b : Byte) : (s.takeCode b).remaining = s.remaining := rfl
@[simp] theorem State.takeCode_chk (b : Byte) : (s.takeCode b).chk = fold Config.seed [b] := rfl
@[simp] theorem State.takeCode_cmdCode (b : Byte) : (s.takeCode b).cmdCode = tagValue b := rfl
@[simp] theorem State.takeCode_infoLen (b : Byte) : (s.takeCode b).infoLen = 0 := rfl
@[simp] theorem State.takeCode_info (b : Byte) : (s.takeCode b).info = s.info := rfl
@[simp] theorem State.takeCode_armed (b : Byte) : (s.takeCode b).armed = s.armed := rfl
@[simp] theorem State.takeCode_count (b : Byte) : (s.takeCode b).count = s.count := rfl
@[simp] theorem State.takeCode_timeoutTicks (b : Byte) : (s.takeCode b).timeoutTicks = s.timeoutTicks := rfl
@[simp] theorem State.takeCode_faulted (b : Byte) : (s.takeCode b).faulted = s.faulted := rfl
@[simp] theorem State.takeCode_faultField (b : Byte) : (s.takeCode b).faultField = s.faultField := rfl
@[simp] theorem State.takeCode_faultByte (b : Byte) : (s.takeCode b).faultByte = s.faultByte := rfl
@[simp] theorem State.takeCode_inbox (b : Byte) : (s.takeCode b).inbox = s.inbox := rfl
@[simp] theorem State.takeCode_outputs (b : Byte) : (s.takeCode b).outputs = s.outputs := rfl
@[simp] theorem State.takeCode_fnResult (b : Byte) : (s.takeCode b).fnResult = s.fnResult := rfl

/-! ### `State.endFrame` -/

@[simp] theorem State.endFrame_st (e : OutEvent) : (s.endFrame e).st = .data := rfl
@[simp] theorem State.endFrame_remaining (e : OutEvent) : (s.endFrame e).remaining = s.remaining := rfl
@[simp] theorem State.endFrame_chk (e : OutEvent) : (s.endFrame e).chk = s.chk := rfl
@[simp] theorem State.endFrame_cmdCode (e : OutEvent) : (s.endFrame e).cmdCode = s.cmdCode := rfl
@[simp] theorem State.endFrame_infoLen (e : OutEvent) : (s.endFrame e).infoLen = s.infoLen := rfl
@[simp] theorem State.endFrame_info (e : OutEvent) : (s.endFrame e).info = s.info := rfl
@[simp] theorem State.endFrame_armed (e : OutEvent) : (s.endFrame e).armed = false := rfl
@[simp] theorem State.endFrame_count (e : OutEvent) : (s.endFrame e).count = 0 := rfl
@[simp] theorem State.endFrame_timeoutTicks (e : OutEvent) : (s.endFrame e).timeoutTicks = s.timeoutTicks := rfl
@[simp] theorem State.endFrame_faulted (e : OutEvent) : (s.endFrame e).faulted = s.faulted := rfl
@[simp] theorem State.endFrame_faultField (e : OutEvent) : (s.endFrame e).faultField = s.faultField := rfl
@[simp] theorem State.endFrame_faultByte (e : OutEvent) : (s.endFrame e).faultByte = s.faultByte := rfl
@[simp] theorem State.endFrame_inbox (e : OutEvent) : (s.endFrame e).inbox = s.inbox := rfl
@[simp] theorem State.endFrame_outputs (e : OutEvent) : (s.endFrame e).outputs = s.outputs ++ [e] := rfl
@[simp] theorem State.endFrame_fnResult (e : OutEvent) : (s.endFrame e).fnResult = s.fnResult := rfl

end Sys2Proof.Machine
end

