-- ==== Sys2Proof/Laws/Ops.lean ====
section
/-! SUPPORT. What each shared operation can do, said once. -/

namespace Sys2Proof.Machine

/-- An `RX` row answers a next state exactly when the block is not faulted and its body does. -/
@[simp] theorem acceptRx_eq_next {s t : State} {r : Result} :
    acceptRx s r = .next t ↔ s.faulted = false ∧ r = .next t := by
  cases h : s.faulted <;> simp [acceptRx, h]

theorem acceptRx_of_ready {s : State} (h : s.faulted = false) (r : Result) :
    acceptRx s r = r := by simp [acceptRx, h]

theorem acceptRx_of_faulted {s : State} (h : s.faulted = true) (r : Result) :
    acceptRx s r = .fault .stuck := by simp [acceptRx, h]

/-- `CodeProc` on an odd byte is row 5, on an even byte row 6. -/
theorem codeProc_of_odd {b : Byte} (h : tagBit b = true) (s : State) :
    s.codeProc b = s.takeCode b := if_pos h

theorem codeProc_of_even {b : Byte} (h : tagBit b = false) (s : State) :
    s.codeProc b = s.raiseViolation .code b := by rw [State.codeProc, h]; rfl

/-- The states `CodeProc` can give. -/
theorem codeProc_cases (b : Byte) (s : State) :
    (tagBit b = true ∧ s.codeProc b = s.takeCode b) ∨
      (tagBit b = false ∧ s.codeProc b = s.raiseViolation .code b) := by
  cases h : tagBit b
  · exact .inr ⟨rfl, codeProc_of_even h s⟩
  · exact .inl ⟨rfl, codeProc_of_odd h s⟩

theorem decRemaining_toNat (r : Value) : (decRemaining r).toNat = r.toNat - 1 := by
  revert r; decide

theorem decRemaining_of_pos {r : Value} (h : 1 ≤ r.toNat) : decRemaining r = r - 1 := by
  revert r; decide

theorem infoOrChecksum_cases (r : Value) :
    (r = 0 ∧ infoOrChecksum r = .commandChecksum) ∨ (r ≠ 0 ∧ infoOrChecksum r = .commandInfo) := by
  by_cases h : r = 0
  · exact .inl ⟨h, if_pos h⟩
  · exact .inr ⟨h, if_neg h⟩

/-- `RX_INFO` answers a next state exactly when the block is not faulted and `info_len` is a cell of the buffer. -/
theorem infoWrite_cases (i : Nat) (v : Byte) (s : State) :
    (i < Config.infoCap ∧ s.infoWrite i v = some { s with info := Memory.write s.info i v }) ∨
      (Config.infoCap ≤ i ∧ s.infoWrite i v = none) := by
  rcases Nat.lt_or_ge i Config.infoCap with h | h
  · exact .inl ⟨h, State.infoWrite_of_lt v h⟩
  · exact .inr ⟨h, State.infoWrite_of_ge v h⟩

@[simp] theorem Fsm.ofCode_code (x : Fsm) : Fsm.ofCode x.code = x := by cases x <;> rfl

@[simp] theorem Fsm.code_ofCode (c : BitVec 3) : (Fsm.ofCode c).code = c := by
  revert c; decide

end Sys2Proof.Machine
end

