-- ==== Sys2Proof/Laws/Deliver.lean ====
section
/-! SUPPORT. What delivering an event, delivering a sequence and a step can do. -/

namespace Sys2Proof.Machine

/-- An `RX` while faulted is stuck. -/
theorem deliver_rx_of_faulted {s : State} (h : s.faulted = true) (b : Byte) :
    deliver (.rx b) s = .fault .stuck := by simp [deliver, isRx, rxReady, h]

/-- An event that is not an `RX`, or meets a block that is not faulted, runs the row it decodes to. -/
theorem deliver_of_instr {e : Event} {s : State} {i : Instr} (h : isRx e = false ∨ s.faulted = false)
    (hi : decodeEvent s.st.code s.chk e = .instr i) : deliver e s = exec i s := by
  rcases h with h | h <;> simp [deliver, rxReady, h, hi]

/-- Whatever is delivered, a next state is that of the decoded row. -/
theorem deliver_next {e : Event} {s t : State} (h : deliver e s = .next t) :
    ∃ i, decodeEvent s.st.code s.chk e = .instr i ∧ exec i s = .next t := by
  unfold deliver at h
  split at h
  · cases h
  · split at h
    · exact ⟨_, ‹_›, h⟩
    · cases h

@[simp] theorem deliverAll_nil (s : State) : deliverAll [] s = .next s := rfl

theorem deliverAll_cons_of_next {e : Event} {s t : State} (h : deliver e s = .next t)
    (es : List Event) : deliverAll (e :: es) s = deliverAll es t := by simp [deliverAll, h]

/-- A sequence that ends in a next state went through one. -/
theorem deliverAll_cons_next {e : Event} {es : List Event} {s t : State}
    (h : deliverAll (e :: es) s = .next t) :
    ∃ u, deliver e s = .next u ∧ deliverAll es u = .next t := by
  unfold deliverAll at h
  split at h
  · exact ⟨_, ‹_›, h⟩
  · cases h
  · cases h

theorem step_of_nil {s : State} (h : s.inbox = []) : step s = .next s := by
  simp [step, stepInbox, h]

theorem step_of_cons {s : State} {e : Event} {rest : List Event} (h : s.inbox = e :: rest) :
    step s = deliver e { s with inbox := rest } := by simp [step, stepInbox, h]

end Sys2Proof.Machine
end

