-- ==== Sys2Proof/Laws/PerInstr.lean ====
section
/-! SUPPORT. Statements made per instruction. Family `EncodeRow`: the encoder's bits lie in the instruction's own row of
spec/opcode_table.json. -/

namespace Sys2Proof.Laws.EncodeRow

/-- The `match` and `mask` columns of an instruction's row: an 11-bit key pattern, a 4-bit kind, or neither. -/
inductive Row where
  | rx (pattern mask : BitVec 11)
  | ev (kind : BitVec 4)
  | fn

/-- The row of an instruction (spec/opcode_table.json). -/
def rowOf : Instr → Row
  | .rxDataEsc => .rx 0x0FF 0x7FF
  | .rxDataByte _ => .rx 0x000 0x700
  | .rxEscLiteral => .rx 0x1FF 0x7FF
  | .rxEscCmd _ => .rx 0x100 0x700
  | .rxCode _ => .rx 0x201 0x701
  | .rxCodeBadtag _ => .rx 0x200 0x701
  | .rxLen _ => .rx 0x301 0x701
  | .rxLenBadtag _ => .rx 0x300 0x701
  | .rxInfo _ => .rx 0x400 0x700
  | .rxChkMatch _ => .rx 0x500 0x700
  | .rxChkMismatch _ => .rx 0x500 0x700
  | .tick => .ev 0x1
  | .parserReset => .ev 0x2
  | .reset => .ev 0x3
  | .cfgTimeout _ => .ev 0x4
  | .txData _ => .ev 0x5
  | .txCmd _ _ => .ev 0x6
  | .fold _ _ => .fn
  | .tagDecode _ => .fn
  | .tagEncode _ => .fn

/-- Whether a code lies in a row. -/
def Row.admits : Row → Option Code → Prop
  | .rx pattern mask, some (.key k) => k &&& mask = pattern
  | .ev kind, some (.event k _) => k = kind
  | .fn, none => True
  | _, _ => False

/-- A well-formed instruction is encoded in its row. -/
def Statement (i : Instr) : Prop := i.wf = true → (rowOf i).admits (encode i)

theorem rxDataEsc : Statement .rxDataEsc := by unfold Statement Row.admits rowOf encode; decide

theorem rxDataByte (b : Byte) : Statement (.rxDataByte b) := by
  unfold Statement Row.admits rowOf encode; revert b; decide

theorem rxEscLiteral : Statement .rxEscLiteral := by unfold Statement Row.admits rowOf encode; decide

theorem rxEscCmd (b : Byte) : Statement (.rxEscCmd b) := by
  unfold Statement Row.admits rowOf encode; revert b; decide

theorem rxCode (b : Byte) : Statement (.rxCode b) := by
  unfold Statement Row.admits rowOf encode; revert b; decide

theorem rxCodeBadtag (b : Byte) : Statement (.rxCodeBadtag b) := by
  unfold Statement Row.admits rowOf encode; revert b; decide

theorem rxLen (b : Byte) : Statement (.rxLen b) := by
  unfold Statement Row.admits rowOf encode; revert b; decide

theorem rxLenBadtag (b : Byte) : Statement (.rxLenBadtag b) := by
  unfold Statement Row.admits rowOf encode; revert b; decide

theorem rxInfo (b : Byte) : Statement (.rxInfo b) := by
  unfold Statement Row.admits rowOf encode; revert b; decide

theorem rxChkMatch (b : Byte) : Statement (.rxChkMatch b) := by
  unfold Statement Row.admits rowOf encode; revert b; decide

theorem rxChkMismatch (b : Byte) : Statement (.rxChkMismatch b) := by
  unfold Statement Row.admits rowOf encode; revert b; decide

theorem tick : Statement .tick := fun _ => rfl

theorem parserReset : Statement .parserReset := fun _ => rfl

theorem reset : Statement .reset := fun _ => rfl

theorem cfgTimeout (v : Ticks) : Statement (.cfgTimeout v) := fun _ => rfl

theorem txData (bytes : List Byte) : Statement (.txData bytes) := fun _ => rfl

theorem txCmd (payload : List Byte) (corrupt : Bool) : Statement (.txCmd payload corrupt) := fun _ => rfl

theorem fold (seed : Byte) (bytes : List Byte) : Statement (.fold seed bytes) := fun _ => trivial

theorem tagDecode (c : Byte) : Statement (.tagDecode c) := fun _ => trivial

theorem tagEncode (v : Nat) : Statement (.tagEncode v) := fun _ => trivial

end Sys2Proof.Laws.EncodeRow
end

