-- ==== Sys2Proof/Laws/Ports.lean ====
section
/-! SUPPORT. What the input signals of a cycle can stand for (00_scope.md R13, 44_timer_and_control.md R178). -/

namespace Sys2Proof.Machine

/-- A byte is transferred exactly when `rx_valid` and `rx_ready` are high. -/
theorem rxTransfer_eq_some {s : State} {p : PortIn} {b : Byte} :
    rxTransfer s p = some b ↔ p.rxValid = true ∧ s.faulted = false ∧ p.rxData = b := by
  unfold rxTransfer rxReady
  cases p.rxValid <;> cases s.faulted <;> simp

/-- `portEvents` is itself one of the orders in which the events of the cycle may be processed. -/
theorem cycleOrder_portEvents (s : State) (p : PortIn) : cycleOrder s p (portEvents s p) = true := by
  have hp : (portEvents s p).isPerm (portEvents s p) = true := List.isPerm_iff.2 (.refl _)
  rw [cycleOrder, hp, Bool.true_and]
  unfold portEvents sameCycle
  cases rxTransfer s p <;> cases p.tick <;> cases p.preset <;> cases p.rst <;> cases p.cfgWe <;> rfl

end Sys2Proof.Machine
end

