-- ==== Sys2Proof/Tests/Slice0.lean ====
section
/-! SUPPORT. Tests: the operand checks, one word of every row's encoding, one or two steps of every row (expected results from
95_test_vectors.md, its section in each comment), and a witness for the hypotheses of every statement that has any. -/

namespace Sys2Proof.Tests

open Sys2Proof Sys2Proof.Machine

/-! ## Helpers -/

/-- The next state of a result, if it is one. -/
def nextOf : Result → Option State
  | .next s => some s
  | .fault _ | .refused _ => none

/-- The fault of a result, if it is one. -/
def faultOf : Result → Option Fault
  | .fault f => some f
  | .next _ | .refused _ => none

/-- The refusal of a result, if it is one. -/
def refusalIn : Result → Option Refusal
  | .refused r => some r
  | .next _ | .fault _ => none

/-- The state after `rx 0xFF`. -/
def escapingState : State := { State.reset with st := .escaping }

/-- The state after `rx 0xFF, 0x07` (95_test_vectors.md 2.2): code 3, `chk` = 0xF8, `count` = 2000. -/
def lengthState : State :=
  { State.reset with st := .commandLength, cmdCode := 3, chk := 0xF8, armed := true, count := 2000 }

/-- The state after `rx 0xFF, 0x05, 0x03` (95_test_vectors.md 2.2): code 2, one info byte to come, `chk` = 0xF9. -/
def infoState : State :=
  { State.reset with
    st := .commandInfo, cmdCode := 2, chk := 0xF9, remaining := 1, armed := true, count := 2000 }

/-- The state after `rx 0xFF, 0x05, 0x03, 0xAA` (95_test_vectors.md 2.2): `chk` = 0x53, `info` = `[0xAA]`. -/
def checksumState : State :=
  { State.reset with
    st := .commandChecksum, cmdCode := 2, chk := 0x53, infoLen := 1, info := [(0, 0xAA)],
    armed := true, count := 2000 }

/-- The state after `rx 0xFF, 0x02` (95_test_vectors.md 2.2). -/
def codeFaultState : State :=
  { State.reset with
    st := .escaping, faulted := true, faultField := 1, faultByte := 0x02,
    outputs := [.diag (.structuralViolation .code 0x02)] }

/-- A state that no sequence of events reaches, with `st` = `CommandCode` (10_state.md R22). -/
def codeState : State := { State.reset with st := .commandCode }

/-! ## The operand checks refuse ill-formed terms -/

theorem test_wf_data_byte : (Instr.rxDataByte 0xFF).wf = false ∧ (Instr.rxDataByte 0xFE).wf = true := by
  decide

theorem test_wf_esc_cmd : (Instr.rxEscCmd 0xFF).wf = false ∧ (Instr.rxEscCmd 0x02).wf = true := by
  decide

theorem test_wf_code : (Instr.rxCode 0x02).wf = false ∧ (Instr.rxCode 0x03).wf = true := by decide

theorem test_wf_code_badtag :
    (Instr.rxCodeBadtag 0x03).wf = false ∧ (Instr.rxCodeBadtag 0x02).wf = true := by decide

theorem test_wf_len : (Instr.rxLen 0xFE).wf = false ∧ (Instr.rxLen 0xFF).wf = true := by decide

theorem test_wf_len_badtag :
    (Instr.rxLenBadtag 0xFF).wf = false ∧ (Instr.rxLenBadtag 0x00).wf = true := by decide

theorem test_wf_tag_encode : (Instr.tagEncode 128).wf = false ∧ (Instr.tagEncode 127).wf = true := by
  decide

/-! ## Decoding: the `encoding` column of 30_encoding.md section 4 and 6, bit by bit -/

theorem test_decode_data_esc : decodeTableWord 16 0b00011111111 = some .rxDataEsc := by decide
theorem test_decode_data_byte : decodeTableWord 16 0b00011111110 = some (.rxDataByte 0xFE) := by decide
theorem test_decode_esc_literal : decodeTableWord 16 0b00111111111 = some .rxEscLiteral := by decide
theorem test_decode_esc_cmd : decodeTableWord 16 0b00100000010 = some (.rxEscCmd 0x02) := by decide
theorem test_decode_code : decodeTableWord 16 0b01011111111 = some (.rxCode 0xFF) := by decide
theorem test_decode_code_badtag : decodeTableWord 16 0b01011111110 = some (.rxCodeBadtag 0xFE) := by
  decide
theorem test_decode_len : decodeTableWord 16 0b01100000001 = some (.rxLen 0x01) := by decide
theorem test_decode_len_badtag : decodeTableWord 16 0b01110000000 = some (.rxLenBadtag 0x80) := by
  decide
theorem test_decode_info : decodeTableWord 16 0b10011111111 = some (.rxInfo 0xFF) := by decide
theorem test_decode_chk_match : decodeKey 0xF9 0b10111111001 = .instr (.rxChkMatch 0xF9) := by decide
theorem test_decode_chk_mismatch : decodeKey 0xF9 0b10100000110 = .instr (.rxChkMismatch 0x06) := by
  decide
theorem test_decode_reserved_states :
    decodeTableWord 16 0b11000000000 = none ∧ decodeTableWord 16 0b11111111111 = none := by decide
theorem test_decode_tick : decodeTableWord 8 0b0001 = some .tick := by decide
theorem test_decode_parser_reset : decodeTableWord 8 0b0010 = some .parserReset := by decide
theorem test_decode_reset : decodeTableWord 8 0b0011 = some .reset := by decide
theorem test_decode_cfg_timeout :
    decode 0 (.event 0b0100 { ticks := 65535 }) = .instr (.cfgTimeout 65535) := by decide
theorem test_decode_tx_data :
    decode 0 (.event 0b0101 { bytes := [0x01, 0xFF] }) = .instr (.txData [0x01, 0xFF]) := by decide
theorem test_decode_tx_cmd :
    decode 0 (.event 0b0110 { bytes := [0x07, 0x01], corrupt := true }) =
      .instr (.txCmd [0x07, 0x01] true) := by decide
theorem test_decode_reserved_kinds :
    decodeTableWord 8 0b0111 = none ∧ decodeTableWord 8 0b1111 = none ∧ decodeTableWord 8 16 = none := by
  decide

/-- Rows of format FN have no decodable bits (30_encoding.md R85). -/
theorem test_functions_have_no_bits :
    encode (.fold 0 []) = none ∧ encode (.tagDecode 0) = none ∧ encode (.tagEncode 0) = none := by decide

/-! ## Receive rows (95_test_vectors.md 2.2) -/

theorem test_data_esc : nextOf (deliver (.rx 0xFF) State.reset) = some escapingState := by decide

theorem test_data_byte :
    nextOf (deliver (.rx 0xFE) State.reset) = some { State.reset with outputs := [.data 0xFE] } := by
  decide

theorem test_esc_literal :
    nextOf (deliver (.rx 0xFF) escapingState) = some { State.reset with outputs := [.data 0xFF] } := by
  decide

theorem test_esc_cmd : nextOf (deliver (.rx 0x07) escapingState) = some lengthState := by decide

theorem test_esc_cmd_highest_code :
    (nextOf (deliver (.rx 0xFD) escapingState)).map (fun t => (t.cmdCode, t.chk)) = some (126, 0x02) := by
  decide

theorem test_esc_cmd_bad_tag : nextOf (deliver (.rx 0x02) escapingState) = some codeFaultState := by
  decide

theorem test_code :
    (nextOf (deliver (.rx 0x09) codeState)).map (fun t => (t.st, t.cmdCode, t.chk, t.armed)) =
      some (.commandLength, 4, 0xF6, false) := by decide

theorem test_code_badtag :
    (nextOf (deliver (.rx 0x00) codeState)).map
        (fun t => (t.st, t.faulted, t.faultField, t.faultByte, t.outputs)) =
      some (.commandCode, true, 1, 0x00, [.diag (.structuralViolation .code 0x00)]) := by decide

theorem test_len_zero :
    (nextOf (deliver (.rx 0x01) lengthState)).map (fun t => (t.st, t.remaining, t.chk)) =
      some (.commandChecksum, 0, 0xF9) := by decide

theorem test_len_longest :
    (nextOf (deliver (.rx 0xFF) { lengthState with cmdCode := 1, chk := 0xFC })).map
      (fun t => (t.st, t.remaining, t.chk)) = some (.commandInfo, 127, 0x03) := by decide

theorem test_len_badtag :
    (nextOf (deliver (.rx 0x00) lengthState)).map
        (fun t => (t.st, statusView t, faultInfoView t, t.armed, t.count)) =
      some (.commandLength, 0x13, 0x0200, false, 0) := by decide

theorem test_info : nextOf (deliver (.rx 0xAA) infoState) = some checksumState := by decide

theorem test_info_sentinel :
    (nextOf (deliver (.rx 0xFF) infoState)).map (fun t => (t.st, t.chk, t.info)) =
      some (.commandChecksum, 0x06, [(0, 0xFF)]) := by decide

theorem test_chk_match :
    (nextOf (deliver (.rx 0x53) checksumState)).map
        (fun t => (t.st, t.chk, t.armed, t.count, t.outputs)) =
      some (.data, 0x53, false, 0, [.cmd 2 [0xAA]]) := by decide

theorem test_chk_mismatch :
    (nextOf (deliver (.rx 0xAC) checksumState)).map (fun t => (t.st, t.armed, t.outputs)) =
      some (.data, false, [.diag (.checksumMismatch 2 1 [0xAA])]) := by decide

theorem test_stuck : faultOf (deliver (.rx 0x11) codeFaultState) = some .stuck := by decide

theorem test_status_after_code_fault :
    statusView codeFaultState = 0x11 ∧ faultInfoView codeFaultState = 0x0102 := by decide

theorem test_reserved_kind_refused :
    refusalIn (step { State.reset with inbox := [.reserved 0] }) = some (.reservedEventKind 7) := by
  decide

/-- Program P5 of 95_test_vectors.md: the stuck byte changes nothing and the environment goes on. -/
theorem test_attempt_stuck : nextOf (attempt (.rx 0x11) codeFaultState) = some codeFaultState := by decide

theorem test_placed_words_run :
    nextOf (step (State.reset.withFetchWord 16 0b00011111111)) = some escapingState ∧
      nextOf (step (State.reset.withFetchWord 8 0b0100)) = some { State.reset with timeoutTicks := 0 } := by
  decide

/-! ## Timer and control (95_test_vectors.md 2.4) -/

theorem test_tick_idle : nextOf (deliver .tick State.reset) = some State.reset := by decide

theorem test_tick_expires :
    nextOf (deliver .tick { lengthState with count := 1 }) =
      some { State.reset with cmdCode := 3, chk := 0xF8, outputs := [.diag .parseTimeout] } := by decide

theorem test_parser_reset :
    nextOf (deliver .parserReset { codeFaultState with timeoutTicks := 5, outputs := [] }) =
      some { State.reset with timeoutTicks := 5 } := by decide

theorem test_reset :
    nextOf (deliver .reset { checksumState with timeoutTicks := 5 }) = some State.reset := by decide

theorem test_cfg_timeout_while_faulted :
    nextOf (deliver (.cfgTimeout 7) codeFaultState) = some { codeFaultState with timeoutTicks := 7 } := by
  decide

theorem test_cfg_timeout_keeps_count :
    (nextOf (deliver (.cfgTimeout 5) lengthState)).map (fun t => (t.count, t.timeoutTicks)) =
      some (2000, 5) := by decide

/-! ## Encoders and functions (95_test_vectors.md 2.1, 2.3) -/

theorem test_tx_data :
    nextOf (deliver (.txData [0xFF, 0xFF, 0x00, 0xFE]) State.reset) =
      some { State.reset with outputs := [.tx [0xFF, 0xFF, 0xFF, 0xFF, 0x00, 0xFE]] } := by decide

theorem test_tx_data_empty :
    nextOf (deliver (.txData []) State.reset) = some { State.reset with outputs := [.tx []] } := by decide

theorem test_tx_cmd :
    nextOf (deliver (.txCmd [0x05, 0x03, 0xFF] false) codeFaultState) =
      some
        { codeFaultState with
          outputs := codeFaultState.outputs ++ [.tx [0xFF, 0x05, 0x03, 0xFF, 0x06]] } := by decide

theorem test_tx_cmd_corrupt :
    nextOf (deliver (.txCmd [0x05, 0x03, 0xAA] true) State.reset) =
      some { State.reset with outputs := [.tx [0xFF, 0x05, 0x03, 0xAA, 0xAC]] } := by decide

theorem test_fold :
    nextOf (exec (.fold 0x12 [0x34, 0x56]) State.reset) =
      some { State.reset with fnResult := some (.byte 0x70) } := by decide

theorem test_tag_decode :
    nextOf (exec (.tagDecode 0xFF) State.reset) =
        some { State.reset with fnResult := some (.tag (some 127)) } ∧
      nextOf (exec (.tagDecode 0xFE) State.reset) =
        some { State.reset with fnResult := some (.tag none) } := by decide

theorem test_tag_encode :
    nextOf (exec (.tagEncode 126) State.reset) =
      some { State.reset with fnResult := some (.byte 0xFD) } := by decide

theorem test_tag_encode_refuses :
    refusalIn (exec (.tagEncode 128) State.reset) = some .tagEncodeOutOfRange := by decide

/-! ## Input signals (00_scope.md R13, 44_timer_and_control.md R178) and `expire` (30_encoding.md R86) -/

theorem test_port_events :
    portEvents State.reset
        { rxValid := true, rxData := 0xFF, tick := true, preset := true, rst := true, cfgWe := true,
          cfgWdata := 7 } = [.rx 0xFF, .tick, .parserReset, .reset, .cfgTimeout 7] ∧
      portEvents State.reset { rxData := 0xFF, cfgWdata := 7 } = [] := by decide

theorem test_port_byte_waits_while_faulted :
    portEvents codeFaultState { rxValid := true, rxData := 0x11, preset := true } = [.parserReset] := by
  decide

theorem test_port_byte_before_tick :
    cycleOrder State.reset { rxValid := true, rxData := 0x41, tick := true, cfgWe := true, cfgWdata := 7 }
        [.cfgTimeout 7, .rx 0x41, .tick] = true ∧
      cycleOrder State.reset { rxValid := true, rxData := 0x41, tick := true } [.tick, .rx 0x41] = false := by
  decide

theorem test_expire :
    nextOf (playLines [.expire] { lengthState with count := 2 }) =
      some { State.reset with cmdCode := 3, chk := 0xF8, outputs := [.diag .parseTimeout] } := by decide

/-! ## The info buffer -/

theorem test_memory_sorted : Memory.write (Memory.write [] 126 0x01) 0 0x02 = [(0, 0x02), (126, 0x01)] := by
  decide

theorem test_memory_zero_removes : Memory.write [(3, 0x05)] 3 0x00 = [] := by decide

theorem test_memory_wf :
    Memory.wf [(0, 0x02), (126, 0x01)] = true ∧ Memory.wf [(127, 0x01)] = false ∧
      Memory.wf [(1, 0x01), (0, 0x02)] = false ∧ Memory.wf [(0, 0x00)] = false := by decide

theorem test_reset_memory_wf : Memory.wf State.reset.info = true := by decide

/-! ## States that meet the invariant -/

theorem escaping_state_inv : escapingState.Inv := by constructor <;> decide

theorem length_state_inv : lengthState.Inv := by constructor <;> decide

theorem info_state_inv : infoState.Inv := by constructor <;> decide

theorem checksum_state_inv : checksumState.Inv := by constructor <;> decide

theorem code_fault_state_inv : codeFaultState.Inv := by constructor <;> decide

theorem pending_tick_inv : State.Inv { lengthState with inbox := [.tick] } := by constructor <;> decide

/-! ## Witnesses for the hypotheses of the statements, one per clause -/

theorem witness_reserved_encodings :
    (∃ kind : BitVec 4, 7 ≤ kind.toNat ∧ kind.toNat = 7) ∧
    (∃ kind : BitVec 4, 7 ≤ kind.toNat ∧ kind.toNat = 15) ∧
    (∃ s : State, s.inbox = .reserved 8 :: []) ∧
    (∃ s : State, s.inbox = .rx 0x00 :: [] ∧ s.faulted = false ∧ s.st = .reserved6) ∧
    (∃ s : State, s.inbox = .rx 0xFF :: [] ∧ s.faulted = false ∧ s.st = .reserved7) :=
  ⟨⟨7, by decide⟩, ⟨15, by decide⟩, ⟨{ State.reset with inbox := [.reserved 8] }, rfl⟩,
    ⟨{ State.reset with st := .reserved6, inbox := [.rx 0x00] }, rfl, rfl, rfl⟩,
    ⟨{ State.reset with st := .reserved7, inbox := [.rx 0xFF] }, rfl, rfl, rfl⟩⟩

theorem witness_decode_agrees_with_encode :
    ∃ (i : Instr) (chk : Byte) (c : Code),
      i.wf = true ∧ i.selectedBy chk = true ∧ encode i = some c ∧ i = .rxLen 0xFF :=
  ⟨.rxLen 0xFF, 0x00, .key 0x3FF, by decide, by decide, by decide, rfl⟩

theorem witness_decode_agrees_with_encode_checksum_rows :
    (Instr.rxChkMatch 0xF9).wf = true ∧ (Instr.rxChkMatch 0xF9).selectedBy 0xF9 = true ∧
      encode (.rxChkMatch 0xF9) = some (.key 0x5F9) ∧
      (Instr.rxChkMismatch 0xFF).wf = true ∧ (Instr.rxChkMismatch 0xFF).selectedBy 0xFD = true ∧
      encode (.rxChkMismatch 0xFF) = some (.key 0x5FF) := by decide

theorem witness_encode_agrees_with_decode :
    decode 0x00 (.key 0x107) = .instr (.rxEscCmd 0x07) ∧
      decode 0x00 (.event 4 { ticks := 5, bytes := [0x01] }) = .instr (.cfgTimeout 5) := by decide

theorem witness_step_runs_decoded :
    ∃ (s : State) (rest : List Event), s.inbox = .rx 0x41 :: rest ∧
      decodeEvent s.st.code s.chk (.rx 0x41) = .instr (.rxDataByte 0x41) :=
  ⟨{ State.reset with inbox := [.rx 0x41] }, [], rfl, by decide⟩

theorem witness_step_waits : State.reset.inbox = [] := rfl

theorem witness_placed_word_runs_next :
    tableCode 16 0x0FF = some (.key 0x0FF) ∧
      decode State.reset.chk (.key 0x0FF) = .instr .rxDataEsc ∧
      tableCode 8 3 = some (.event 3 {}) ∧ decode State.reset.chk (.event 3 {}) = .instr .reset := by
  decide

theorem witness_data_esc : State.reset.faulted = false ∧ State.reset.st = .data := by decide

theorem witness_data_byte :
    State.reset.faulted = false ∧ State.reset.st = .data ∧ (0x00 : Byte) ≠ 0xFF ∧ (0xFE : Byte) ≠ 0xFF := by
  decide

theorem witness_esc_literal : escapingState.faulted = false ∧ escapingState.st = .escaping := by decide

theorem witness_esc_cmd :
    escapingState.faulted = false ∧ escapingState.st = .escaping ∧
      ((0x01 : Byte) ≠ 0xFF ∧ (0x01 : Byte).toNat % 2 = 1) ∧
      ((0xFD : Byte) ≠ 0xFF ∧ (0xFD : Byte).toNat % 2 = 1) := by decide

theorem witness_code :
    codeState.faulted = false ∧ codeState.st = .commandCode ∧ (0x01 : Byte).toNat % 2 = 1 ∧
      (0xFF : Byte).toNat % 2 = 1 := by decide

theorem witness_even_structural_byte :
    (0x00 : Byte).toNat % 2 = 0 ∧ (0xFE : Byte).toNat % 2 = 0 ∧
      (escapingState.faulted = false ∧ escapingState.st = .escaping) ∧
      (codeState.faulted = false ∧ codeState.st = .commandCode) ∧
      (lengthState.faulted = false ∧ lengthState.st = .commandLength) := by decide

theorem witness_len :
    lengthState.faulted = false ∧ lengthState.st = .commandLength ∧ (0x01 : Byte).toNat % 2 = 1 ∧
      (0xFF : Byte).toNat % 2 = 1 := by decide

theorem witness_info_last_cell :
    ∃ s : State, s.faulted = false ∧ Memory.wf s.info = true ∧ s.remaining.toNat = 1 ∧
      s.infoLen.toNat = 126 ∧ s.st = .commandInfo :=
  ⟨{ infoState with infoLen := 126 }, by decide⟩

theorem witness_info_first_of_longest :
    ∃ s : State, s.faulted = false ∧ Memory.wf s.info = true ∧ s.remaining.toNat = 127 ∧
      s.infoLen.toNat = 0 ∧ s.st = .commandInfo :=
  ⟨{ infoState with remaining := 127 }, by decide⟩

theorem witness_info_beyond_none_left :
    ∃ s : State, s.faulted = false ∧ Memory.wf s.info = true ∧ s.remaining = 0 ∧ s.infoLen.toNat = 126 :=
  ⟨{ infoState with remaining := 0, infoLen := 126 }, by decide⟩

theorem witness_info_beyond_full :
    ∃ s : State, s.faulted = false ∧ Memory.wf s.info = true ∧ s.infoLen.toNat = 127 :=
  ⟨{ infoState with infoLen := 127 }, by decide⟩

theorem witness_chk :
    checksumState.faulted = false ∧ checksumState.st = .commandChecksum ∧ 0x53 = checksumState.chk ∧
      (0xFF : Byte) ≠ checksumState.chk := by decide

theorem witness_stuck :
    ∃ s : State, s.faulted = true ∧ s.inbox = .rx 0x11 :: [] ∧ isRxRow (.rxChkMatch 0x00) = true :=
  ⟨{ codeFaultState with inbox := [.rx 0x11] }, by decide⟩

theorem witness_tick_counts :
    State.reset.armed = false ∧
      (∃ s : State, s.armed = true ∧ s.count.toNat = 2) ∧
      (∃ s : State, s.armed = true ∧ s.count.toNat = 65535) :=
  ⟨rfl, ⟨{ lengthState with count := 2 }, by decide⟩, ⟨{ lengthState with count := 65535 }, by decide⟩⟩

theorem witness_expiry :
    (∃ s : State, s.armed = true ∧ s.count.toNat = 0) ∧ (∃ s : State, s.armed = true ∧ s.count.toNat = 1) :=
  ⟨⟨{ lengthState with count := 0 }, by decide⟩, ⟨{ lengthState with count := 1 }, by decide⟩⟩

theorem witness_expiry_at_the_last_tick :
    lengthState.armed = true ∧ 1999 < max lengthState.count.toNat 1 ∧
      (∃ s : State, s.armed = true ∧ s.count.toNat = 0 ∧ 0 < max s.count.toNat 1) :=
  ⟨rfl, by decide, ⟨{ lengthState with count := 0 }, by decide⟩⟩

/-- The frame of program P4 of 95_test_vectors.md up to its last tick but one. -/
theorem witness_timeout_recovery :
    ∃ s t : State, s.faulted = false ∧ s.st = .escaping ∧ (0x05 : Byte) ≠ 0xFF ∧ (0x42 : Byte) ≠ 0xFF ∧
      [Event.rx 0x05, .tick, .rx 0xAA, .tick].all isRxOrTick = true ∧
      ticksIn [.rx 0x05, .tick, .rx 0xAA, .tick] + 1 = max s.timeoutTicks.toNat 1 ∧
      deliverAll (.rx 0x05 :: [.rx 0x05, .tick, .rx 0xAA, .tick]) s = .next t ∧
      t.outputs = s.outputs ∧ t.armed = true :=
  ⟨{ escapingState with timeoutTicks := 3 }, _, rfl, rfl, by decide, by decide, by decide, by decide, rfl,
    rfl, rfl⟩

theorem witness_views : escapingState.Inv ∧ escapingState.armed = false := ⟨escaping_state_inv, rfl⟩

theorem witness_fold_laws : [(0x01 : Byte), 0x02].Perm [0x02, 0x01] ∧ 7 < 8 :=
  ⟨List.Perm.swap _ _ _, by decide⟩

theorem witness_tag_decode :
    (0x00 : Byte).toNat % 2 = 0 ∧ (0xFE : Byte).toNat % 2 = 0 ∧ (0x01 : Byte).toNat % 2 = 1 ∧
      (0xFF : Byte).toNat % 2 = 1 := by decide

theorem witness_tag_encode : 0 < 128 ∧ 127 < 128 ∧ 128 ≤ 128 := by decide

theorem witness_frame_of_data_rows :
    (∃ t, exec .rxDataEsc State.reset = .next t) ∧
      (∃ t, exec (.rxDataByte 0x00) State.reset = .next t) ∧
      (∃ t, exec .rxEscLiteral escapingState = .next t) := ⟨⟨_, rfl⟩, ⟨_, rfl⟩, ⟨_, rfl⟩⟩

theorem witness_frame_of_code_rows :
    (∃ t, exec (.rxEscCmd 0x01) escapingState = .next t ∧ (0x01 : Byte).toNat % 2 = 1) ∧
      (∃ t, exec (.rxCode 0xFF) codeState = .next t) := ⟨⟨_, rfl, by decide⟩, ⟨_, rfl⟩⟩

theorem witness_frame_of_violation_rows :
    (∃ t, exec (.rxCodeBadtag 0x00) codeState = .next t) ∧
      (∃ t, exec (.rxLenBadtag 0xFE) lengthState = .next t) ∧
      (∃ t, exec (.rxEscCmd 0x02) escapingState = .next t ∧ (0x02 : Byte).toNat % 2 = 0) :=
  ⟨⟨_, rfl⟩, ⟨_, rfl⟩, ⟨_, rfl, by decide⟩⟩

theorem witness_frame_of_length_and_checksum_rows :
    (∃ t, exec (.rxLen 0x01) lengthState = .next t) ∧
      (∃ t, exec (.rxChkMatch 0x53) checksumState = .next t) ∧
      (∃ t, exec (.rxChkMismatch 0xAC) checksumState = .next t) := ⟨⟨_, rfl⟩, ⟨_, rfl⟩, ⟨_, rfl⟩⟩

theorem witness_frame_of_info_row :
    ∃ t, exec (.rxInfo 0xAA) infoState = .next t ∧ 1 ≠ infoState.infoLen.toNat :=
  ⟨checksumState, rfl, by decide⟩

theorem witness_frame_of_control_events :
    (∃ t, exec .tick lengthState = .next t) ∧ (∃ t, exec .parserReset codeFaultState = .next t) ∧
      (∃ t, exec .reset codeFaultState = .next t) ∧ (∃ t, exec (.cfgTimeout 7) lengthState = .next t) :=
  ⟨⟨_, rfl⟩, ⟨_, rfl⟩, ⟨_, rfl⟩, ⟨_, rfl⟩⟩

theorem witness_frame_of_encoders_and_functions :
    (∃ t, exec (.txData [0xFF]) lengthState = .next t) ∧
      (∃ t, exec (.txCmd [] true) codeFaultState = .next t) ∧
      (∃ t, exec (.fold 0xFF [0x12]) lengthState = .next t) ∧
      (∃ t, exec (.tagDecode 0x00) lengthState = .next t) ∧
      (∃ t, exec (.tagEncode 127) lengthState = .next t) :=
  ⟨⟨_, rfl⟩, ⟨_, rfl⟩, ⟨_, rfl⟩, ⟨_, rfl⟩, ⟨_, rfl⟩⟩

theorem witness_every_step :
    ∃ t, State.Inv { lengthState with inbox := [.tick] } ∧
      step { lengthState with inbox := [.tick] } = .next t := ⟨_, pending_tick_inv, rfl⟩

theorem reachable_escaping : Reachable escapingState := .deliver (.rx 0xFF) .reset rfl

theorem reachable_length : Reachable lengthState := .deliver (.rx 0x07) reachable_escaping rfl

theorem reachable_info : Reachable infoState :=
  .deliver (.rx 0x03) (.deliver (.rx 0x05) reachable_escaping rfl) rfl

theorem reachable_checksum : Reachable checksumState := .deliver (.rx 0xAA) reachable_info rfl

theorem witness_reachable_states :
    (∃ s, Reachable s ∧ s.st = .commandInfo ∧ s.armed = true) ∧
      (∃ s, Reachable s ∧ s.st = .commandChecksum) ∧ (∃ s, Reachable s ∧ s.armed = false) :=
  ⟨⟨_, reachable_info, rfl, rfl⟩, ⟨_, reachable_checksum, rfl⟩, ⟨_, reachable_escaping, rfl⟩⟩

theorem witness_steps_stop :
    State.Inv { lengthState with inbox := [.tick] } ∧
      (∃ s : State, s.Inv ∧ s.faulted = true) ∧ infoState.Inv :=
  ⟨pending_tick_inv, ⟨_, code_fault_state_inv, rfl⟩, info_state_inv⟩

theorem witness_outputs_only_grow :
    ∃ t, step { State.reset with inbox := [.rx 0x41] } = .next t ∧ t.outputs = [.data 0x41] :=
  ⟨_, rfl, rfl⟩

theorem witness_only_violations_set_faulted :
    ∃ t, exec (.rxLenBadtag 0x00) lengthState = .next t ∧ lengthState.faulted = false ∧
      t.faulted = true := ⟨_, rfl, rfl, rfl⟩

theorem witness_fault_is_left_only_by_a_reset :
    ∃ t, exec (.cfgTimeout 7) codeFaultState = .next t ∧ codeFaultState.faulted = true ∧
      Instr.cfgTimeout 7 ≠ .parserReset ∧ Instr.cfgTimeout 7 ≠ .reset ∧ codeFaultState.armed = false :=
  ⟨_, rfl, rfl, by decide, by decide, rfl⟩

theorem witness_tag_rejection :
    (escapingState.faulted = false ∧ (0x02 : Byte).toNat % 2 = 0 ∧ escapingState.st = .escaping) ∧
      (lengthState.faulted = false ∧ (0xFE : Byte).toNat % 2 = 0 ∧ lengthState.st = .commandLength) ∧
      (∃ u, deliverAll [.tick, .cfgTimeout 7] codeFaultState = .next u ∧
        Event.parserReset ∉ [Event.tick, .cfgTimeout 7] ∧ Event.reset ∉ [Event.tick, .cfgTimeout 7]) :=
  ⟨by decide, by decide, _, rfl, by decide, by decide⟩

theorem witness_timer_is_armed :
    (∃ t, exec (.rxEscCmd 0x07) escapingState = .next t ∧ escapingState.armed = false ∧ t.armed = true) ∧
      (escapingState.Inv ∧ escapingState.st = .escaping) ∧
      (∃ t, exec (.rxLen 0x01) lengthState = .next t) ∧ (∃ t, exec (.rxInfo 0xAA) infoState = .next t) :=
  ⟨⟨_, rfl, rfl, rfl⟩, ⟨escaping_state_inv, rfl⟩, ⟨_, rfl⟩, ⟨_, rfl⟩⟩

theorem witness_period_is_written :
    ∃ t, exec (.cfgTimeout 7) lengthState = .next t ∧ t.timeoutTicks ≠ lengthState.timeoutTicks :=
  ⟨_, rfl, by decide⟩

theorem witness_one_outcome :
    checksumState.Inv ∧ checksumState.faulted = false ∧ checksumState.st.inFrame = true ∧
      (∃ t, deliver (.rx 0x53) checksumState = .next t) ∧ (∃ t, deliver .tick checksumState = .next t) ∧
      (∃ t, deliver .parserReset checksumState = .next t) :=
  ⟨checksum_state_inv, rfl, rfl, ⟨_, rfl⟩, ⟨_, rfl⟩, ⟨_, rfl⟩⟩

theorem witness_data_round_trip :
    State.reset.st = .data ∧ State.reset.faulted = false ∧ State.reset.armed = false ∧
      [Event.rx 0xFF, .tick, .rx 0xFF, .rx 0x00].all isRxOrTick = true ∧
      rxBytesOf [.rx 0xFF, .tick, .rx 0xFF, .rx 0x00] = encodeData [0xFF, 0x00] := by decide

theorem witness_command_round_trip :
    State.reset.st = .data ∧ State.reset.faulted = false ∧ State.reset.armed = false ∧
      Memory.wf State.reset.info = true ∧ 126 ≤ 126 ∧ commandPayload 126 [] = some [0xFD, 0x01] ∧
      [Event.tick, .rx 0xFF, .tick].all isRxOrTick = true ∧ rxBytesOf [.tick, .rx 0xFF, .tick] = [0xFF] ∧
      [Event.rx 0xFD, .rx 0x01, .tick, .rx 0x03].all isRxOrTick = true ∧
      rxBytesOf [.rx 0xFD, .rx 0x01, .tick, .rx 0x03] =
        [0xFD, 0x01] ++ [frameChecksum [0xFD, 0x01] false] ∧
      ticksIn [.rx 0xFD, .rx 0x01, .tick, .rx 0x03] < max State.reset.timeoutTicks.toNat 1 := by decide

theorem witness_command_round_trip_longest :
    0 ≤ 126 ∧ (List.replicate 127 (0xFF : Byte)).length ≤ 127 ∧
      commandPayload 0 (List.replicate 127 0xFF) = some ([0x01, 0xFF] ++ List.replicate 127 0xFF) :=
  ⟨by decide, by simp, by simp [commandPayload, tagEncode]⟩

theorem witness_frame_is_accepted :
    State.reset.st = .data ∧ State.reset.faulted = false ∧ Memory.wf State.reset.info = true ∧
      (0x09 : Byte) ≠ 0xFF ∧ (0x09 : Byte).toNat % 2 = 1 ∧
      (0x07 : Byte).toNat = 2 * [(0x85 : Byte), 0xB0, 0xC6].length + 1 ∧
      (0x01 : Byte).toNat = 2 * ([] : List Byte).length + 1 := by decide

theorem witness_short_frames :
    State.reset.st = .data ∧ State.reset.faulted = false ∧ (0x01 : Byte) ≠ 0xFF ∧
      (0x01 : Byte).toNat % 2 = 1 ∧ (0x05 : Byte) ≠ 0xFF ∧ (0x05 : Byte).toNat % 2 = 1 := by decide

theorem witness_stale_registers :
    ∃ t, escapingState.st = .escaping ∧ Memory.wf escapingState.info = true ∧
      Memory.wf [(126, 0xAA)] = true ∧
      deliverAll (rxEvents [0x05, 0x03, 0xAA, 0x53]) escapingState = .next t :=
  ⟨_, rfl, rfl, by decide, rfl⟩

theorem witness_transmitted_stream :
    ∃ t, deliver (.txData [0xFF]) lengthState = .next t ∧ txStream t.outputs = [0xFF, 0xFF] :=
  ⟨_, rfl, rfl⟩

end Sys2Proof.Tests
end

section
/-! PROOF. A step is the row its pending event decodes to, in faulted states too (00_scope.md R6, 42_stream_parser.md R120): a key
decodes to receive rows only, and a receive row is stuck while faulted, as `deliver` is. -/

namespace Sys2Proof.Machine

/-- Every receive row makes the acceptance test of R120 before anything else. -/
theorem exec_eq_acceptRx {i : Instr} (hi : isRxRow i = true) (s : State) :
    ∃ r, exec i s = acceptRx s r := by
  cases i <;> simp [isRxRow] at hi <;> exact ⟨_, rfl⟩

theorem exec_of_faulted {i : Instr} (hi : isRxRow i = true) {s : State} (hs : s.faulted = true) :
    exec i s = .fault .stuck := by
  obtain ⟨r, hr⟩ := exec_eq_acceptRx hi s
  rw [hr, acceptRx_of_faulted hs]

theorem isRxRow_build : ∀ r ∈ rxRows, ∀ b, isRxRow (r.build b) = true := by
  simp [rxRows, dataRows, commandRows, isRxRow]

/-- A key decodes to receive rows only (30_encoding.md R79). -/
theorem isRxRow_of_decodeKey {chk : Byte} {k : BitVec 11} {i : Instr}
    (h : decodeKey chk k = .instr i) : isRxRow i = true := by
  unfold decodeKey at h
  split at h
  case h_1 r hfind =>
    cases h
    exact isRxRow_build r (List.mem_of_find?_eq_some hfind) _
  case h_2 => cases h

/-- Whatever the state, an event that decodes is delivered as its row: `deliver`'s own test of `faulted` agrees with the
row's. -/
theorem deliver_eq_exec {e : Event} {s : State} {i : Instr}
    (hi : decodeEvent s.st.code s.chk e = .instr i) : deliver e s = exec i s := by
  cases hs : s.faulted with
  | false => exact deliver_of_instr (.inr hs) hi
  | true =>
    cases e with
    | rx b => rw [deliver_rx_of_faulted hs, exec_of_faulted (isRxRow_of_decodeKey hi) hs]
    | _ => exact deliver_of_instr (.inl rfl) hi

/-- Settles O7: a pending event is delivered as its row, faulted or not, and an empty inbox waits. -/
theorem stepRunsDecodedInstruction : Obligations.StepRunsDecodedInstruction := by
  refine ⟨fun s e rest i hinbox hi => ?_, fun s => step_of_nil⟩
  rw [step_of_cons hinbox]
  exact deliver_eq_exec hi

end Sys2Proof.Machine
end

section
/-! PROOF. The sample words of the operation map (30_encoding.md R79, R84), read by the decoder itself. -/

namespace Sys2Proof

/-- Settles O1: every word is a literal, so the decoder is evaluated on each of the nineteen. -/
theorem sampleWordsDecode : Obligations.SampleWordsDecode := by
  unfold Obligations.SampleWordsDecode
  decide

end Sys2Proof
end

section
/-! PROOF. The checksum accumulator, bit by bit (41_checksum_and_tag.md section 1). -/

namespace Sys2Proof.Machine

/-- Two lists folded one after the other are folded as one (41_checksum_and_tag.md section 1). -/
theorem fold_append (seed : Byte) (a b : List Byte) : fold seed (a ++ b) = fold (fold seed a) b :=
  List.foldl_append

/-- XORing two bytes into one keeps the parity of how many bytes of a list have bit `k` set. -/
theorem countP_xor_cons_mod_two (a b : Byte) (bytes : List Byte) (k : Nat) :
    ((a ^^^ b) :: bytes).countP (fun x => x.getLsbD k) % 2 =
      (a :: b :: bytes).countP (fun x => x.getLsbD k) % 2 := by
  simp only [List.countP_cons, BitVec.getLsbD_xor]
  cases a.getLsbD k <;> cases b.getLsbD k <;> simp [Nat.add_assoc]

/-- Bit `k` of a fold is the parity of bit `k` over the seed and the bytes: the fold of `b :: bytes` is that of `bytes` from
`seed ^^^ b`, and the XOR has the parity of the two bytes it stands for. -/
theorem getLsbD_fold (seed : Byte) (bytes : List Byte) (k : Nat) :
    (fold seed bytes).getLsbD k =
      ((seed :: bytes).countP (fun b => b.getLsbD k) % 2 == 1) := by
  induction bytes generalizing seed with
  | nil => cases h : seed.getLsbD k <;> simp [h]
  | cons b bytes ih => rw [fold_cons, ih, countP_xor_cons_mod_two]

/-- Settles O32: the first two clauses are the loop's start and its last round, the third is by induction on the bytes. -/
theorem foldIsTheXorOfSeedAndBytes : Obligations.FoldIsTheXorOfSeedAndBytes :=
  fun seed bytes => ⟨fold_nil seed, fun b => fold_append seed bytes [b], getLsbD_fold seed bytes⟩

end Sys2Proof.Machine
end

section
/-! PROOF. The tagged-byte decoder, in numbers (41_checksum_and_tag.md section 2). -/

namespace Sys2Proof.Machine

/-- The value field of a byte is its half, whatever the tag bit (30_encoding.md R70). -/
theorem tagValue_toNat (b : Byte) : (tagValue b).toNat = b.toNat / 2 := by
  have hb : b.toNat / 2 < 2 ^ 7 := by omega
  simp only [tagValue, BitVec.extractLsb'_toNat, Nat.shiftRight_eq_div_pow, pow_one,
    Nat.mod_eq_of_lt hb]

/-- `TAG_DECODE` of a byte whose tag bit is clear is `(false, -)`. -/
theorem tagDecode_of_even {c : Byte} (hc : tagBit c = false) : tagDecode c = none :=
  if_neg (ne_true_of_eq_false hc)

/-- `TAG_DECODE` of a byte whose tag bit is set is its value field, extended to a byte. -/
theorem tagDecode_of_odd {c : Byte} (hc : tagBit c = true) :
    tagDecode c = some ((tagValue c).setWidth 8) := if_pos hc

/-- Settles O34: the test on the tag bit is the test on the parity, and the value field is half the byte. -/
theorem tagDecodeChecksTheTagBit : Obligations.TagDecodeChecksTheTagBit := by
  refine fun c => ⟨fun heven => ?_, fun hodd => ?_⟩
  · have hbit : tagBit c = false := (tagBit_eq c).trans (decide_eq_false (by omega))
    exact tagDecode_of_even hbit
  · have hbit : tagBit c = true := (tagBit_eq c).trans (decide_eq_true hodd)
    have hv : ((tagValue c).setWidth 8).toNat = c.toNat / 2 := by
      rw [BitVec.toNat_setWidth_of_le (by decide), tagValue_toNat]
    exact ⟨_, tagDecode_of_odd hbit, hv, by omega⟩

end Sys2Proof.Machine
end

section
/-! PROOF. The decode key of the receive FSM, read by its two parts: the state code and the received byte (30_encoding.md R79). -/

namespace Sys2Proof

/-- The table of R79 with each `match` and `mask` column cut into its state part and its byte part. -/
theorem rxRows_eq : rxRows =
    [ ⟨rxKey 0 0xFF, rxKey 7 0xFF, .always, fun _ => .rxDataEsc⟩,
      ⟨rxKey 0 0, rxKey 7 0, .always, .rxDataByte⟩,
      ⟨rxKey 1 0xFF, rxKey 7 0xFF, .always, fun _ => .rxEscLiteral⟩,
      ⟨rxKey 1 0, rxKey 7 0, .always, .rxEscCmd⟩,
      ⟨rxKey 2 1, rxKey 7 1, .always, .rxCode⟩,
      ⟨rxKey 2 0, rxKey 7 1, .always, .rxCodeBadtag⟩,
      ⟨rxKey 3 1, rxKey 7 1, .always, .rxLen⟩,
      ⟨rxKey 3 0, rxKey 7 1, .always, .rxLenBadtag⟩,
      ⟨rxKey 4 0, rxKey 7 0, .always, .rxInfo⟩,
      ⟨rxKey 5 0, rxKey 7 0, .chkEqual, .rxChkMatch⟩,
      ⟨rxKey 5 0, rxKey 7 0, .chkDiffers, .rxChkMismatch⟩ ] := rfl

@[simp] theorem keyByte_rxKey (st : BitVec 3) (b : Byte) : keyByte (rxKey st b) = b :=
  BitVec.extractLsb'_append_eq_right

@[simp] theorem keyState_rxKey (st : BitVec 3) (b : Byte) : keyState (rxKey st b) = st :=
  BitVec.extractLsb'_append_eq_left

/-- Two keys are equal exactly when their states and their bytes are. -/
theorem rxKey_inj {st st' : BitVec 3} {b b' : Byte} :
    rxKey st b = rxKey st' b' ↔ st = st' ∧ b = b' := by
  refine ⟨fun h => ⟨?_, ?_⟩, fun ⟨hst, hb⟩ => hst ▸ hb ▸ rfl⟩
  · simpa using congrArg keyState h
  · simpa using congrArg keyByte h

/-- Masking a key masks its state and its byte. -/
theorem rxKey_and (st mst : BitVec 3) (b mb : Byte) :
    rxKey st b &&& rxKey mst mb = rxKey (st &&& mst) (b &&& mb) := BitVec.and_append

/-- A row compares the state and the byte of a key each under its own part of the mask. -/
@[simp] theorem selects_rxKey (chk : Byte) (st pst mst : BitVec 3) (b pb mb : Byte) (c : RowCond)
    (build : Byte → Instr) :
    RxRow.selects chk (rxKey st b) ⟨rxKey pst pb, rxKey mst mb, c, build⟩ =
      (decide (st &&& mst = pst) && decide (b &&& mb = pb) && c.holds chk b) := by
  simp [RxRow.selects, rxKey_and, rxKey_inj, beq_eq_decide]

/-- A byte under the mask of the rows of `RX_DATA_ESC` and `RX_ESC_LITERAL` is itself. -/
@[simp] theorem and_byteMask (b : Byte) : b &&& 255#8 = b := BitVec.and_allOnes

/-- The tag bit of an odd byte, under the mask of the structural rows. -/
theorem and_tagMask_of_odd {b : Byte} (hb : b.toNat % 2 = 1) : b &&& 1#8 = 1#8 := by
  revert b; decide

theorem decodeKey_data_sentinel (chk : Byte) :
    decodeKey chk (rxKey 0 0xFF) = .instr .rxDataEsc := by
  simp [decodeKey, rxRows_eq, RowCond.holds]

theorem decodeKey_data_byte {b : Byte} (hb : b ≠ 255#8) (chk : Byte) :
    decodeKey chk (rxKey 0 b) = .instr (.rxDataByte b) := by
  simp [decodeKey, rxRows_eq, RowCond.holds, hb]

theorem decodeKey_escaping_sentinel (chk : Byte) :
    decodeKey chk (rxKey 1 0xFF) = .instr .rxEscLiteral := by
  simp [decodeKey, rxRows_eq, RowCond.holds]

theorem decodeKey_code_odd {b : Byte} (hb : b.toNat % 2 = 1) (chk : Byte) :
    decodeKey chk (rxKey 2 b) = .instr (.rxCode b) := by
  simp [decodeKey, rxRows_eq, RowCond.holds, and_tagMask_of_odd hb]

theorem decodeKey_length_odd {b : Byte} (hb : b.toNat % 2 = 1) (chk : Byte) :
    decodeKey chk (rxKey 3 b) = .instr (.rxLen b) := by
  simp [decodeKey, rxRows_eq, RowCond.holds, and_tagMask_of_odd hb]

theorem decodeKey_info (chk b : Byte) : decodeKey chk (rxKey 4 b) = .instr (.rxInfo b) := by
  simp [decodeKey, rxRows_eq, RowCond.holds]

theorem decodeKey_checksum_equal (chk : Byte) :
    decodeKey chk (rxKey 5 chk) = .instr (.rxChkMatch chk) := by
  simp [decodeKey, rxRows_eq, RowCond.holds]

theorem decodeKey_checksum_differs {b chk : Byte} (h : b ≠ chk) :
    decodeKey chk (rxKey 5 b) = .instr (.rxChkMismatch b) := by
  simp [decodeKey, rxRows_eq, RowCond.holds, h]

end Sys2Proof
end

section
/-! PROOF. The receive rows of data mode and of a well-formed frame (42_stream_parser.md sections 2 and 3): what each row does
in a state that is not faulted, and that a byte delivered in the row's state is decoded to the row. -/

namespace Sys2Proof.Machine

/-- What a row does, delivering its byte in its state does: the byte's key is decoded to the row (42_stream_parser.md R121). -/
theorem exec_and_deliver {i : Instr} {s t : State} {x : Fsm} {b : Byte}
    (hexec : exec i s = .next t) (hkey : decodeKey s.chk (rxKey x.code b) = .instr i) :
    exec i s = .next t ∧ (s.st = x → deliver (.rx b) s = .next t) := by
  refine ⟨hexec, fun hst => ?_⟩
  have hi : decodeEvent s.st.code s.chk (.rx b) = .instr i := by rwa [hst]
  exact (deliver_eq_exec hi).trans hexec

theorem infoOrChecksum_eq_ite (r : Value) :
    infoOrChecksum r = if 0 < r.toNat then .commandInfo else .commandChecksum := by
  revert r; decide

/-! ### The rows without a fault -/

section
variable {s : State} (hs : s.faulted = false)
include hs

theorem exec_rxDataEsc_of_ready : exec .rxDataEsc s = .next (s.goto .escaping) :=
  acceptRx_of_ready hs _

theorem exec_rxDataByte_of_ready (b : Byte) : exec (.rxDataByte b) s = .next (s.emit (.data b)) :=
  acceptRx_of_ready hs _

theorem exec_rxEscLiteral_of_ready :
    exec .rxEscLiteral s = .next ((s.emit (.data Config.sentinel)).goto .data) :=
  acceptRx_of_ready hs _

theorem exec_rxCode_of_ready (b : Byte) : exec (.rxCode b) s = .next (s.takeCode b) :=
  acceptRx_of_ready hs _

theorem exec_rxLen_of_ready (b : Byte) :
    exec (.rxLen b) s = .next
      { s with remaining := tagValue b, chk := s.chk ^^^ b, st := infoOrChecksum (tagValue b) } :=
  acceptRx_of_ready hs _

/-- `RX_INFO` at a cell of the buffer. -/
theorem exec_rxInfo_of_ready (b : Byte) (hlen : s.infoLen.toNat < Config.infoCap) :
    exec (.rxInfo b) s = .next
      { s with
        info := Memory.write s.info s.infoLen.toNat b, infoLen := s.infoLen + 1, chk := s.chk ^^^ b,
        remaining := decRemaining s.remaining, st := infoOrChecksum (decRemaining s.remaining) } := by
  change execRxInfo b s = _
  rw [execRxInfo, acceptRx_of_ready hs, State.infoWrite_of_lt b hlen]

theorem exec_rxChkMatch_of_ready (b : Byte) :
    exec (.rxChkMatch b) s = .next (s.endFrame (.cmd s.cmdCode s.infoList)) :=
  acceptRx_of_ready hs _

theorem exec_rxChkMismatch_of_ready (b : Byte) :
    exec (.rxChkMismatch b) s = .next
      (s.endFrame (.diag (.checksumMismatch s.cmdCode s.infoLen s.infoList))) :=
  acceptRx_of_ready hs _

end

/-! ### The statements -/

/-- Settles O9: the sentinel's key in `Data` selects row 1. -/
theorem rxDataEscEntersEscaping : Obligations.RxDataEscEntersEscaping := fun _ hs =>
  exec_and_deliver (exec_rxDataEsc_of_ready hs) (decodeKey_data_sentinel _)

/-- Settles O10: any other byte's key in `Data` misses row 1 and selects row 2. -/
theorem rxDataByteDeliversTheByte : Obligations.RxDataByteDeliversTheByte := fun _ b hs hb =>
  exec_and_deliver (exec_rxDataByte_of_ready hs b) (decodeKey_data_byte hb _)

/-- Settles O11: the sentinel's key in `Escaping` selects row 3. -/
theorem rxEscLiteralDeliversTheSentinel : Obligations.RxEscLiteralDeliversTheSentinel := fun _ hs =>
  exec_and_deliver (exec_rxEscLiteral_of_ready hs) (decodeKey_escaping_sentinel _)

/-- Settles O13: an odd byte's key in `CommandCode` selects row 5, and the checksum is the fold of that one byte. -/
theorem rxCodeStartsTheCommand : Obligations.RxCodeStartsTheCommand := fun _ b hs hb =>
  exec_and_deliver (exec_rxCode_of_ready hs b) (decodeKey_code_odd hb _)

/-- Settles O15: the row's choice of the next state is the statement's test on the value field. -/
theorem rxLenLoadsTheLength : Obligations.RxLenLoadsTheLength := by
  intro s b hs hb t
  have hexec : exec (.rxLen b) s = .next t := by
    rw [exec_rxLen_of_ready hs, infoOrChecksum_eq_ite]
    rfl
  exact exec_and_deliver hexec (decodeKey_length_odd hb _)

/-- Settles O16: the new buffer is the one written, and with an info byte still to come the decrement is a subtraction. -/
theorem rxInfoAppendsTheByte : Obligations.RxInfoAppendsTheByte := by
  intro s b hs hwf hrem hlen
  refine ⟨Memory.write s.info s.infoLen.toNat b, Memory.read_write_same hwf _ b,
    fun i hi => Memory.read_write_other s.info b hi, ?_⟩
  intro t
  have hmore : 0 < (decRemaining s.remaining).toNat ↔ 1 < s.remaining.toNat := by
    rw [decRemaining_toNat]; omega
  have hexec : exec (.rxInfo b) s = .next t := by
    rw [exec_rxInfo_of_ready hs b hlen, infoOrChecksum_eq_ite, if_congr hmore rfl rfl,
      decRemaining_of_pos hrem]
  exact exec_and_deliver hexec (decodeKey_info _ b)

/-- Settles O18: `b` = `chk` selects the row, and the row itself does not look at the byte. -/
theorem rxChkMatchDeliversTheCommand : Obligations.RxChkMatchDeliversTheCommand := by
  rintro s b hs rfl
  exact exec_and_deliver (exec_rxChkMatch_of_ready hs _) (decodeKey_checksum_equal _)

/-- Settles O19: a byte other than `chk` misses row 10 and selects row 11. -/
theorem rxChkMismatchDropsTheCommand : Obligations.RxChkMismatchDropsTheCommand := fun _ b hs hb =>
  exec_and_deliver (exec_rxChkMismatch_of_ready hs b) (decodeKey_checksum_differs hb)

end Sys2Proof.Machine
end

section
/-! PROOF. The transmit requests (43_frame_codec.md): what each row emits, and the loop of `encodeData` as one map over the
buffer. -/

namespace Sys2Proof.Machine

/-- `encodeData` looks at each byte alone: it doubles the sentinel and keeps every other byte (43_frame_codec.md R151). -/
theorem encodeData_eq_flatMap (bytes : List Byte) :
    encodeData bytes = bytes.flatMap fun b => if b = Config.sentinel then [b, b] else [b] := by
  induction bytes with
  | nil => rfl
  | cons b bytes ih =>
    rw [List.flatMap_cons, ← ih]
    by_cases hb : b = Config.sentinel
    · rw [hb, encodeData_sentinel, if_pos rfl]; rfl
    · rw [encodeData_other hb, if_neg hb]; rfl

theorem exec_txData (bytes : List Byte) (s : State) :
    exec (.txData bytes) s = .next (s.emit (.tx (encodeData bytes))) := rfl

theorem exec_txCmd (payload : List Byte) (corrupt : Bool) (s : State) :
    exec (.txCmd payload corrupt) s = .next (s.emit (.tx (encodeCommand payload corrupt))) := rfl

/-- Settles O29: the row emits `encodeData` of the buffer, whose loop is the statement's map. -/
theorem txDataStuffsTheBuffer : Obligations.TxDataStuffsTheBuffer := by
  intro s bytes
  rw [exec_txData, encodeData_eq_flatMap]
  rfl

/-- Settles O31: the row emits `encodeCommand` of the payload, whose definition is the statement's list and whose checksum
byte is the statement's fold. -/
theorem txCmdFramesThePayload : Obligations.TxCmdFramesThePayload := fun s payload corrupt =>
  exec_txCmd payload corrupt s

end Sys2Proof.Machine
end

section
/-! PROOF. Where the timer is armed (44_timer_and_control.md section 1): what every instruction does to `armed`, and that the
length byte and the info bytes leave the timer as it is. -/

namespace Sys2Proof.Machine

/-- The code byte in a state that is not faulted: arm, then process the byte (42_stream_parser.md R125). -/
theorem exec_rxEscCmd_of_ready {s : State} (hs : s.faulted = false) (b : Byte) :
    exec (.rxEscCmd b) s = .next (s.arm.codeProc b) := acceptRx_of_ready hs _

/-- A valid code byte keeps what the arming wrote. -/
theorem exec_rxEscCmd_of_odd {s : State} {b : Byte} (hs : s.faulted = false) (hb : tagBit b = true) :
    exec (.rxEscCmd b) s = .next (s.arm.takeCode b) := by
  rw [exec_rxEscCmd_of_ready hs, codeProc_of_odd hb]

theorem timer_of_rxLen {b : Byte} {s t : State} (h : exec (.rxLen b) s = .next t) :
    t.armed = s.armed ∧ t.count = s.count := by
  obtain ⟨-, ⟨⟩⟩ := acceptRx_eq_next.mp h
  exact ⟨rfl, rfl⟩

theorem timer_of_rxInfo {b : Byte} {s t : State} (h : exec (.rxInfo b) s = .next t) :
    t.armed = s.armed ∧ t.count = s.count := by
  obtain ⟨-, ht⟩ := acceptRx_eq_next.mp h
  obtain ⟨-, hw⟩ | ⟨-, hw⟩ := infoWrite_cases s.infoLen.toNat b s <;> rw [hw] at ht <;> cases ht
  exact ⟨rfl, rfl⟩

/-- A tick leaves `armed` as it is, except that the expiry cancels the timer (44_timer_and_control.md R172, R173). -/
theorem armed_of_tick {s t : State} (h : exec .tick s = .next t) :
    t.armed = s.armed ∨ t.armed = false := by
  change execTick s = _ at h
  unfold execTick at h
  split_ifs at h <;> cases h
  · exact .inl rfl
  · exact .inr (State.expire_armed s)
  · exact .inl rfl

/-- Every instruction but the code byte's keeps `armed` or clears it. -/
theorem armed_cases {i : Instr} {s t : State} (h : exec i s = .next t) :
    t.armed = s.armed ∨ t.armed = false ∨ ∃ b, i = .rxEscCmd b := by
  cases i with
  | rxEscCmd b => exact .inr (.inr ⟨b, rfl⟩)
  | rxLen => exact .inl (timer_of_rxLen h).1
  | rxInfo => exact .inl (timer_of_rxInfo h).1
  | rxDataEsc | rxDataByte | rxEscLiteral | rxCode =>
    obtain ⟨-, ⟨⟩⟩ := acceptRx_eq_next.mp h
    exact .inl rfl
  | rxCodeBadtag | rxLenBadtag | rxChkMatch | rxChkMismatch =>
    obtain ⟨-, ⟨⟩⟩ := acceptRx_eq_next.mp h
    exact .inr (.inl rfl)
  | tick => exact (armed_of_tick h).imp_right .inl
  | parserReset | reset => cases h; exact .inr (.inl rfl)
  | cfgTimeout | txData | txCmd | fold | tagDecode => cases h; exact .inl rfl
  | tagEncode v =>
    change execTagEncode v s = _ at h
    unfold execTagEncode at h
    split at h <;> cases h
    exact .inl rfl

/-- No timer is pending before the code byte: `Escaping` is outside the frame (10_state.md R34). -/
theorem State.Inv.armed_of_escaping {s : State} (hinv : s.Inv) (hst : s.st = .escaping) :
    s.armed = false := by
  rw [Bool.eq_false_iff]
  intro harmed
  have hframe : s.st.inFrame = true := (hinv.armedIff.mp harmed).2
  rw [hst] at hframe
  cases hframe

/-- Settles O52: processing an odd code byte keeps what the arming wrote, and of the ways an instruction can change `armed` only
the code byte's sets it. -/
theorem timerIsArmedOnlyByTheCodeByte : Obligations.TimerIsArmedOnlyByTheCodeByte := by
  refine ⟨fun s b hs hodd => ?_, fun i s t h hidle harmed => ?_,
    fun s hinv hst => hinv.armed_of_escaping hst, fun b s t h => h.elim timer_of_rxLen timer_of_rxInfo⟩
  · have hbit : tagBit b = true := (tagBit_eq b).trans (decide_eq_true hodd)
    exact ⟨_, exec_rxEscCmd_of_odd hs hbit, rfl, rfl⟩
  · obtain hkept | hcleared | hcode := armed_cases h
    · rw [hkept, hidle] at harmed
      cases harmed
    · rw [hcleared] at harmed
      cases harmed
    · exact hcode

end Sys2Proof.Machine
end

section
/-! PROOF. The decoder and the encoder agree (30_encoding.md sections 4 to 6): which row a state and a byte select, said once as a
relation, and from it the table of the 2048 keys and the two round trips. -/

namespace Sys2Proof.Machine

theorem tagBit_of_odd {b : Byte} (hb : b.toNat % 2 = 1) : tagBit b = true :=
  (tagBit_eq b).trans (decide_eq_true hb)

theorem tagBit_of_even {b : Byte} (hb : b.toNat % 2 = 0) : tagBit b = false :=
  (tagBit_eq b).trans (decide_eq_false (by omega))

theorem odd_of_tagBit {b : Byte} (hb : tagBit b = true) : b.toNat % 2 = 1 := by
  rwa [tagBit_eq, decide_eq_true_eq] at hb

theorem even_of_tagBit {b : Byte} (hb : tagBit b = false) : b.toNat % 2 = 0 := by
  rw [tagBit_eq, decide_eq_false_iff_not] at hb
  omega

/-- The tag bit of an even byte, under the mask of the structural rows. -/
theorem and_tagMask_of_even {b : Byte} (hb : b.toNat % 2 = 0) : b &&& 1#8 = 0#8 := by
  revert b; decide

/-! ### The rows that the round trip needs beside those of a well-formed frame -/

theorem decodeKey_escaping_byte {b : Byte} (hb : b ≠ 255#8) (chk : Byte) :
    decodeKey chk (rxKey 1 b) = .instr (.rxEscCmd b) := by
  simp [decodeKey, rxRows_eq, RowCond.holds, hb]

theorem decodeKey_code_even {b : Byte} (hb : b.toNat % 2 = 0) (chk : Byte) :
    decodeKey chk (rxKey 2 b) = .instr (.rxCodeBadtag b) := by
  simp [decodeKey, rxRows_eq, RowCond.holds, and_tagMask_of_even hb]

theorem decodeKey_length_even {b : Byte} (hb : b.toNat % 2 = 0) (chk : Byte) :
    decodeKey chk (rxKey 3 b) = .instr (.rxLenBadtag b) := by
  simp [decodeKey, rxRows_eq, RowCond.holds, and_tagMask_of_even hb]

theorem decodeKey_reserved6 (chk b : Byte) :
    decodeKey chk (rxKey 6 b) = .rejected (.reservedState 6) := by
  simp [decodeKey, rxRows_eq]

theorem decodeKey_reserved7 (chk b : Byte) :
    decodeKey chk (rxKey 7 b) = .rejected (.reservedState 7) := by
  simp [decodeKey, rxRows_eq]

/-! ### Which row a state and a byte select -/

/-- The row that the byte `b` selects in each state, with the accumulator `chk` (30_encoding.md R79). -/
inductive Selects (chk b : Byte) : Fsm → Instr → Prop
  | dataEsc (hb : b = 0xFF) : Selects chk b .data .rxDataEsc
  | dataByte (hb : b ≠ 0xFF) : Selects chk b .data (.rxDataByte b)
  | escLiteral (hb : b = 0xFF) : Selects chk b .escaping .rxEscLiteral
  | escCmd (hb : b ≠ 0xFF) : Selects chk b .escaping (.rxEscCmd b)
  | code (hb : tagBit b = true) : Selects chk b .commandCode (.rxCode b)
  | codeBadtag (hb : tagBit b = false) : Selects chk b .commandCode (.rxCodeBadtag b)
  | len (hb : tagBit b = true) : Selects chk b .commandLength (.rxLen b)
  | lenBadtag (hb : tagBit b = false) : Selects chk b .commandLength (.rxLenBadtag b)
  | info : Selects chk b .commandInfo (.rxInfo b)
  | chkMatch (hb : b = chk) : Selects chk b .commandChecksum (.rxChkMatch b)
  | chkMismatch (hb : b ≠ chk) : Selects chk b .commandChecksum (.rxChkMismatch b)

theorem decodeKey_of_selects {chk b : Byte} {x : Fsm} {i : Instr} (h : Selects chk b x i) :
    decodeKey chk (rxKey x.code b) = .instr i := by
  cases h with
  | dataEsc hb => exact hb ▸ decodeKey_data_sentinel chk
  | dataByte hb => exact decodeKey_data_byte hb chk
  | escLiteral hb => exact hb ▸ decodeKey_escaping_sentinel chk
  | escCmd hb => exact decodeKey_escaping_byte hb chk
  | code hb => exact decodeKey_code_odd (odd_of_tagBit hb) chk
  | codeBadtag hb => exact decodeKey_code_even (even_of_tagBit hb) chk
  | len hb => exact decodeKey_length_odd (odd_of_tagBit hb) chk
  | lenBadtag hb => exact decodeKey_length_even (even_of_tagBit hb) chk
  | info => exact decodeKey_info chk b
  | chkMatch hb => exact hb ▸ decodeKey_checksum_equal chk
  | chkMismatch hb => exact decodeKey_checksum_differs hb

/-- In every state but the two reserved ones every byte selects a row. -/
theorem exists_selects (chk b : Byte) (x : Fsm) :
    (∃ i, Selects chk b x i) ∨ x = .reserved6 ∨ x = .reserved7 := by
  cases x with
  | data => exact .inl ((eq_or_ne b 0xFF).elim (⟨_, .dataEsc ·⟩) (⟨_, .dataByte ·⟩))
  | escaping => exact .inl ((eq_or_ne b 0xFF).elim (⟨_, .escLiteral ·⟩) (⟨_, .escCmd ·⟩))
  | commandCode =>
    exact .inl ((Bool.eq_false_or_eq_true (tagBit b)).elim (⟨_, .code ·⟩) (⟨_, .codeBadtag ·⟩))
  | commandLength =>
    exact .inl ((Bool.eq_false_or_eq_true (tagBit b)).elim (⟨_, .len ·⟩) (⟨_, .lenBadtag ·⟩))
  | commandInfo => exact .inl ⟨_, .info⟩
  | commandChecksum => exact .inl ((eq_or_ne b chk).elim (⟨_, .chkMatch ·⟩) (⟨_, .chkMismatch ·⟩))
  | reserved6 => exact .inr (.inl rfl)
  | reserved7 => exact .inr (.inr rfl)

/-- The decoder reads from a key exactly the row that its state and its byte select. -/
theorem decodeKey_eq_instr {chk b : Byte} {x : Fsm} {i : Instr} :
    decodeKey chk (rxKey x.code b) = .instr i ↔ Selects chk b x i := by
  refine ⟨fun h => ?_, decodeKey_of_selects⟩
  obtain ⟨j, hj⟩ | rfl | rfl := exists_selects chk b x
  · cases (decodeKey_of_selects hj).symm.trans h
    exact hj
  · cases (decodeKey_reserved6 chk b).symm.trans h
  · cases (decodeKey_reserved7 chk b).symm.trans h

/-- What a selected row is: well-formed, with its condition on `chk` met, and encoded by the very key. -/
theorem Selects.wf_selectedBy_encode {chk b : Byte} {x : Fsm} {i : Instr} (h : Selects chk b x i) :
    i.wf = true ∧ i.selectedBy chk = true ∧ encode i = some (.key (rxKey x.code b)) := by
  cases h with
  | dataEsc hb | escLiteral hb => exact ⟨rfl, rfl, by rw [hb]; rfl⟩
  | dataByte hb | escCmd hb => exact ⟨bne_iff_ne.mpr hb, rfl, rfl⟩
  | code hb | len hb => exact ⟨hb, rfl, rfl⟩
  | codeBadtag hb | lenBadtag hb => exact ⟨(Bool.not_eq_true' _).mpr hb, rfl, rfl⟩
  | info => exact ⟨rfl, rfl, rfl⟩
  | chkMatch hb => exact ⟨rfl, beq_iff_eq.mpr hb, rfl⟩
  | chkMismatch hb => exact ⟨rfl, bne_iff_ne.mpr hb, rfl⟩

/-- A key is put together from its two parts. -/
theorem rxKey_keyState_keyByte (k : BitVec 11) : rxKey (keyState k) (keyByte k) = k := by
  revert k; decide

/-- Every key is that of a state and a byte. -/
theorem exists_rxKey (k : BitVec 11) : ∃ (x : Fsm) (b : Byte), rxKey x.code b = k :=
  ⟨Fsm.ofCode (keyState k), keyByte k, by rw [Fsm.code_ofCode, rxKey_keyState_keyByte]⟩

/-- A well-formed instruction with a key, its condition on `chk` met, is the row of the table that the key finds; an event
instruction is the row of its kind. -/
theorem decode_of_encode {i : Instr} {chk : Byte} {c : Code} (hwf : i.wf = true)
    (hsel : i.selectedBy chk = true) (hc : encode i = some c) : decode chk c = .instr i := by
  cases i with
  | rxDataEsc => cases hc; exact decodeKey_data_sentinel chk
  | rxDataByte b => cases hc; exact decodeKey_data_byte (bne_iff_ne.mp hwf) chk
  | rxEscLiteral => cases hc; exact decodeKey_escaping_sentinel chk
  | rxEscCmd b => cases hc; exact decodeKey_escaping_byte (bne_iff_ne.mp hwf) chk
  | rxCode b => cases hc; exact decodeKey_code_odd (odd_of_tagBit hwf) chk
  | rxCodeBadtag b => cases hc; exact decodeKey_code_even (even_of_tagBit ((Bool.not_eq_true' _).mp hwf)) chk
  | rxLen b => cases hc; exact decodeKey_length_odd (odd_of_tagBit hwf) chk
  | rxLenBadtag b => cases hc; exact decodeKey_length_even (even_of_tagBit ((Bool.not_eq_true' _).mp hwf)) chk
  | rxInfo b => cases hc; exact decodeKey_info chk b
  | rxChkMatch b =>
    cases hc
    rw [beq_iff_eq.mp hsel]
    exact decodeKey_checksum_equal chk
  | rxChkMismatch b => cases hc; exact decodeKey_checksum_differs (bne_iff_ne.mp hsel)
  | tick | parserReset | reset | cfgTimeout | txData | txCmd => cases hc; rfl
  | fold | tagDecode | tagEncode => cases hc

/-- What a kind decodes to is well-formed, needs nothing of `chk`, and is encoded by the kind. -/
theorem wf_selectedBy_encode_of_decodeKind {chk : Byte} {kind : BitVec 4} {o : Operands} {i : Instr}
    (h : decodeKind kind o = .instr i) :
    i.wf = true ∧ i.selectedBy chk = true ∧ ∃ o', encode i = some (.event kind o') := by
  have hkind (n : Nat) (hn : n < 2 ^ 4) (hk : kind.toNat = n) : BitVec.ofNat 4 n = kind := by
    rw [← hk, BitVec.ofNat_toNat, BitVec.setWidth_eq]
  unfold decodeKind at h
  split at h <;> cases h <;>
    exact ⟨rfl, rfl, _, congrArg (some <| Code.event · _) (hkind _ (by decide) ‹_›)⟩

/-! ### The statements -/

/-- Settles O5: each instruction with a code is the row that its key selects, or the row of its kind. -/
theorem decodeAgreesWithEncode : Obligations.DecodeAgreesWithEncode :=
  fun _ _ _ hwf hsel hc => decode_of_encode hwf hsel hc

/-- Settles O6: a key decodes to the row it selects only, a kind to its own row. -/
theorem encodeAgreesWithDecode : Obligations.EncodeAgreesWithDecode := by
  intro chk c i h
  cases c with
  | key k =>
    obtain ⟨x, b, rfl⟩ := exists_rxKey k
    exact (decodeKey_eq_instr.mp h).wf_selectedBy_encode
  | event kind o => exact wf_selectedBy_encode_of_decodeKind h

/-- Settles O2: in each state the byte decides between the state's two rows, and the two reserved codes have none. -/
theorem receiveKeySelectsItsRow : Obligations.ReceiveKeySelectsItsRow := by
  intro chk b
  refine ⟨?_, ?_, ?_, ?_, decodeKey_info chk b, ?_, decodeKey_reserved6 chk b, decodeKey_reserved7 chk b⟩
  · split
    · next hb => rw [hb]; exact decodeKey_data_sentinel chk
    · next hb => exact decodeKey_data_byte hb chk
  · split
    · next hb => rw [hb]; exact decodeKey_escaping_sentinel chk
    · next hb => exact decodeKey_escaping_byte hb chk
  · split
    · next hb => exact decodeKey_code_odd hb chk
    · next hb => exact decodeKey_code_even (by omega) chk
  · split
    · next hb => exact decodeKey_length_odd hb chk
    · next hb => exact decodeKey_length_even (by omega) chk
  · split
    · next hb => rw [hb]; exact decodeKey_checksum_equal chk
    · next hb => exact decodeKey_checksum_differs hb

/-- Settles O3: each event presents its kind with its own operands, whatever the state. -/
theorem eventKindsDecode : Obligations.EventKindsDecode := fun _ _ =>
  ⟨rfl, rfl, rfl, fun _ => rfl, fun _ => rfl, fun _ _ => rfl⟩

theorem decodeKind_of_reserved {kind : BitVec 4} (hk : 7 ≤ kind.toNat) (o : Operands) :
    decodeKind kind o = .rejected (.reservedKind kind) := by
  obtain ⟨n, hn⟩ := Nat.exists_eq_add_of_le' hk
  unfold decodeKind
  rw [hn]
  rfl

/-- An event of a reserved kind is refused in every state (30_encoding.md R81). -/
theorem deliver_reserved (k : Fin 9) (s : State) :
    deliver (.reserved k) s = .refused (.reservedEventKind (BitVec.ofNat 4 (7 + k.val))) := by
  have hk : 7 ≤ (BitVec.ofNat 4 (7 + k.val)).toNat := by rw [BitVec.toNat_ofNat]; omega
  have hdec : decodeEvent s.st.code s.chk (.reserved k) =
      .rejected (.reservedKind (BitVec.ofNat 4 (7 + k.val))) := decodeKind_of_reserved hk {}
  simp [deliver, isRx, hdec, refusalOf]

/-- An `RX` in a reserved state is refused by the name of the state (30_encoding.md R79). -/
theorem deliver_rx_of_reservedState {s : State} (hs : s.faulted = false)
    (hst : s.st = .reserved6 ∨ s.st = .reserved7) (b : Byte) :
    deliver (.rx b) s = .refused (.reservedState s.st.code) := by
  have hdec : decodeEvent s.st.code s.chk (.rx b) = .rejected (.reservedState s.st.code) := by
    obtain hst | hst := hst <;> rw [hst]
    · exact decodeKey_reserved6 s.chk b
    · exact decodeKey_reserved7 s.chk b
  simp [deliver, rxReady, hs, hdec, refusalOf]

/-- Settles O4: kinds from 7 on fall through the decoder's list, and the two reserved states select no row. -/
theorem reservedEncodingsAreRefused : Obligations.ReservedEncodingsAreRefused := by
  refine ⟨fun kind o chk hk => decodeKind_of_reserved hk o, fun k rest s hinbox => ?_,
    fun b rest s hinbox hs hst => ?_⟩
  · rw [step_of_cons hinbox, deliver_reserved]
  · rw [step_of_cons hinbox]
    exact deliver_rx_of_reservedState (s := { s with inbox := rest }) hs hst b

/-- The placed event of a kind other than `RX` presents that kind, with every operand empty. -/
theorem Code.ofEvent_ofKind : ∀ (st : BitVec 3) (kind : BitVec 4), kind ≠ 0 →
    Code.ofEvent st (Event.ofKind kind) = .event kind {} := by decide

/-- The codes of table words: a key, or a kind with every operand empty. -/
theorem tableCode_cases {nbits w : Nat} {c : Code} (h : tableCode nbits w = some c) :
    (∃ k, c = .key k) ∨ ∃ kind, c = .event kind {} := by
  unfold tableCode at h
  split_ifs at h <;> cases h
  · exact .inr ⟨_, rfl⟩
  · exact .inl ⟨_, rfl⟩

/-- A placed code that decodes is what the next step runs, with the inbox of before. -/
theorem step_placeCode {s : State} {c : Code} {i : Instr} (hc : (∃ k, c = .key k) ∨ ∃ kind, c = .event kind {})
    (hi : decode s.chk c = .instr i) :
    step (s.placeCode c) = exec i { s.placeCode c with inbox := s.inbox } := by
  obtain ⟨k, rfl⟩ | ⟨kind, rfl⟩ := hc
  · refine stepRunsDecodedInstruction.1 _ (.rx (keyByte k)) s.inbox i rfl ?_
    change decodeKey s.chk (rxKey (Fsm.ofCode (keyState k)).code (keyByte k)) = _
    rw [Fsm.code_ofCode, rxKey_keyState_keyByte]
    exact hi
  · have hkind : kind ≠ 0 := by rintro rfl; cases hi
    refine stepRunsDecodedInstruction.1 _ (Event.ofKind kind) s.inbox i rfl ?_
    exact (congrArg (decode s.chk) (Code.ofEvent_ofKind _ kind hkind)).trans hi

/-- Settles O8: placing a code writes `st` and the inbox only, and the placed event decodes as the word does. -/
theorem placedWordRunsNext : Obligations.PlacedWordRunsNext := by
  intro s nbits w c i hc hi
  have hplaced : s.withFetchWord nbits w = s.placeCode c := by
    simp only [State.withFetchWord, State.placeWord, hc]
  refine ⟨_, hplaced, ?_, ?_, step_placeCode (tableCode_cases hc) hi⟩ <;> cases c <;> rfl

end Sys2Proof.Machine
end

section
/-! PROOF. What each instruction does, said once: the next state that it answers, with what the state must meet for it to answer
one (42_stream_parser.md to 44_timer_and_control.md). Every frame, and every rule over all instructions, is read off these cases. -/

namespace Sys2Proof.Machine

/-- The body of `RX_LEN` (42_stream_parser.md R128). -/
def State.takeLength (b : Byte) (s : State) : State :=
  { s with remaining := tagValue b, chk := s.chk ^^^ b, st := infoOrChecksum (tagValue b) }

/-- The body of `RX_INFO` at a cell of the buffer (42_stream_parser.md R130). -/
def State.takeInfo (b : Byte) (s : State) : State :=
  { s with
    info := Memory.write s.info s.infoLen.toNat b, infoLen := s.infoLen + 1, chk := s.chk ^^^ b,
    remaining := decRemaining s.remaining, st := infoOrChecksum (decRemaining s.remaining) }

/-- The states that each instruction can answer. -/
inductive Effect (s : State) : Instr → State → Prop
  | dataEsc (hs : s.faulted = false) : Effect s .rxDataEsc (s.goto .escaping)
  | dataByte (b : Byte) (hs : s.faulted = false) : Effect s (.rxDataByte b) (s.emit (.data b))
  | escLiteral (hs : s.faulted = false) :
      Effect s .rxEscLiteral ((s.emit (.data Config.sentinel)).goto .data)
  | escCode {b : Byte} (hs : s.faulted = false) (hb : tagBit b = true) :
      Effect s (.rxEscCmd b) (s.arm.takeCode b)
  | escViolation {b : Byte} (hs : s.faulted = false) (hb : tagBit b = false) :
      Effect s (.rxEscCmd b) (s.raiseViolation .code b)
  | code (b : Byte) (hs : s.faulted = false) : Effect s (.rxCode b) (s.takeCode b)
  | codeBadtag (b : Byte) (hs : s.faulted = false) :
      Effect s (.rxCodeBadtag b) (s.raiseViolation .code b)
  | len (b : Byte) (hs : s.faulted = false) : Effect s (.rxLen b) (s.takeLength b)
  | lenBadtag (b : Byte) (hs : s.faulted = false) :
      Effect s (.rxLenBadtag b) (s.raiseViolation .length b)
  | info (b : Byte) (hs : s.faulted = false) (hlen : s.infoLen.toNat < Config.infoCap) :
      Effect s (.rxInfo b) (s.takeInfo b)
  | chkMatch (b : Byte) (hs : s.faulted = false) :
      Effect s (.rxChkMatch b) (s.endFrame (.cmd s.cmdCode s.infoList))
  | chkMismatch (b : Byte) (hs : s.faulted = false) :
      Effect s (.rxChkMismatch b)
        (s.endFrame (.diag (.checksumMismatch s.cmdCode s.infoLen s.infoList)))
  | tickIdle (harmed : s.armed = false) : Effect s .tick s
  | tickExpires (harmed : s.armed = true) (hcount : s.count.toNat ≤ 1) : Effect s .tick s.expire
  | tickCounts (harmed : s.armed = true) (hcount : 1 < s.count.toNat) :
      Effect s .tick { s with count := s.count - 1 }
  | parserReset : Effect s .parserReset s.parserReset
  | reset : Effect s .reset { s.parserReset with timeoutTicks := Config.timeoutDefault }
  | cfgTimeout (v : Ticks) : Effect s (.cfgTimeout v) { s with timeoutTicks := v }
  | txData (bytes : List Byte) : Effect s (.txData bytes) (s.emit (.tx (encodeData bytes)))
  | txCmd (payload : List Byte) (corrupt : Bool) :
      Effect s (.txCmd payload corrupt) (s.emit (.tx (encodeCommand payload corrupt)))
  | fold (seed : Byte) (bytes : List Byte) :
      Effect s (.fold seed bytes) (s.answer (.byte (fold seed bytes)))
  | tagDecode (c : Byte) : Effect s (.tagDecode c) (s.answer (.tag (tagDecode c)))
  | tagEncode {v : Nat} {b : Byte} (hv : tagEncode v = some b) :
      Effect s (.tagEncode v) (s.answer (.byte b))

/-! ### The operations whose meaning branches -/

/-- A violation at the code byte undoes the arming (42_stream_parser.md R125). -/
theorem raiseViolation_arm (s : State) (f : StructField) (b : Byte) :
    s.arm.raiseViolation f b = s.raiseViolation f b := rfl

theorem exec_rxEscCmd_of_even {s : State} {b : Byte} (hs : s.faulted = false) (hb : tagBit b = false) :
    exec (.rxEscCmd b) s = .next (s.raiseViolation .code b) := by
  rw [exec_rxEscCmd_of_ready hs, codeProc_of_even hb, raiseViolation_arm]

theorem exec_rxCodeBadtag_of_ready {s : State} (hs : s.faulted = false) (b : Byte) :
    exec (.rxCodeBadtag b) s = .next (s.raiseViolation .code b) := acceptRx_of_ready hs _

theorem exec_rxLenBadtag_of_ready {s : State} (hs : s.faulted = false) (b : Byte) :
    exec (.rxLenBadtag b) s = .next (s.raiseViolation .length b) := acceptRx_of_ready hs _

/-- With the buffer full `RX_INFO` stops (20_memory.md R51). -/
theorem exec_rxInfo_of_full {s : State} (hs : s.faulted = false) (b : Byte)
    (hlen : Config.infoCap ≤ s.infoLen.toNat) : exec (.rxInfo b) s = .fault .infoIndexOutOfRange := by
  change execRxInfo b s = _
  rw [execRxInfo, acceptRx_of_ready hs, State.infoWrite_of_ge b hlen]

theorem exec_tick_of_idle {s : State} (harmed : s.armed = false) : exec .tick s = .next s :=
  if_pos harmed

theorem exec_tick_of_last {s : State} (harmed : s.armed = true) (hcount : s.count.toNat ≤ 1) :
    exec .tick s = .next s.expire := by
  change execTick s = _
  rw [execTick, if_neg (ne_false_of_eq_true harmed), if_pos hcount]

theorem exec_tick_of_more {s : State} (harmed : s.armed = true) (hcount : 1 < s.count.toNat) :
    exec .tick s = .next { s with count := s.count - 1 } := by
  change execTick s = _
  rw [execTick, if_neg (ne_false_of_eq_true harmed), if_neg (Nat.not_le.mpr hcount)]

theorem exec_tagEncode_of_some {v : Nat} {b : Byte} (hv : tagEncode v = some b) (s : State) :
    exec (.tagEncode v) s = .next (s.answer (.byte b)) := by
  change execTagEncode v s = _
  rw [execTagEncode, hv]

theorem exec_tagEncode_of_none {v : Nat} (hv : tagEncode v = none) (s : State) :
    exec (.tagEncode v) s = .refused .tagEncodeOutOfRange := by
  change execTagEncode v s = _
  rw [execTagEncode, hv]

/-! ### The two directions -/

theorem exec_of_effect {i : Instr} {s t : State} (h : Effect s i t) : exec i s = .next t := by
  cases h with
  | dataEsc hs => exact exec_rxDataEsc_of_ready hs
  | dataByte b hs => exact exec_rxDataByte_of_ready hs b
  | escLiteral hs => exact exec_rxEscLiteral_of_ready hs
  | escCode hs hb => exact exec_rxEscCmd_of_odd hs hb
  | escViolation hs hb => exact exec_rxEscCmd_of_even hs hb
  | code b hs => exact exec_rxCode_of_ready hs b
  | codeBadtag b hs => exact exec_rxCodeBadtag_of_ready hs b
  | len b hs => exact exec_rxLen_of_ready hs b
  | lenBadtag b hs => exact exec_rxLenBadtag_of_ready hs b
  | info b hs hlen => exact exec_rxInfo_of_ready hs b hlen
  | chkMatch b hs => exact exec_rxChkMatch_of_ready hs b
  | chkMismatch b hs => exact exec_rxChkMismatch_of_ready hs b
  | tickIdle harmed => exact exec_tick_of_idle harmed
  | tickExpires harmed hcount => exact exec_tick_of_last harmed hcount
  | tickCounts harmed hcount => exact exec_tick_of_more harmed hcount
  | parserReset | reset | cfgTimeout | txData | txCmd | fold | tagDecode => rfl
  | tagEncode hv => exact exec_tagEncode_of_some hv s

/-- Nothing else is answered. -/
theorem effect_of_exec {i : Instr} {s t : State} (h : exec i s = .next t) : Effect s i t := by
  cases i with
  | rxDataEsc => obtain ⟨hs, ⟨⟩⟩ := acceptRx_eq_next.mp h; exact .dataEsc hs
  | rxDataByte b => obtain ⟨hs, ⟨⟩⟩ := acceptRx_eq_next.mp h; exact .dataByte b hs
  | rxEscLiteral => obtain ⟨hs, ⟨⟩⟩ := acceptRx_eq_next.mp h; exact .escLiteral hs
  | rxEscCmd b =>
    obtain ⟨hs, ⟨⟩⟩ := acceptRx_eq_next.mp h
    obtain ⟨hb, ht⟩ | ⟨hb, ht⟩ := codeProc_cases b s.arm
    · exact ht ▸ .escCode hs hb
    · exact ht ▸ .escViolation hs hb
  | rxCode b => obtain ⟨hs, ⟨⟩⟩ := acceptRx_eq_next.mp h; exact .code b hs
  | rxCodeBadtag b => obtain ⟨hs, ⟨⟩⟩ := acceptRx_eq_next.mp h; exact .codeBadtag b hs
  | rxLen b => obtain ⟨hs, ⟨⟩⟩ := acceptRx_eq_next.mp h; exact .len b hs
  | rxLenBadtag b => obtain ⟨hs, ⟨⟩⟩ := acceptRx_eq_next.mp h; exact .lenBadtag b hs
  | rxInfo b =>
    obtain ⟨hs, ht⟩ := acceptRx_eq_next.mp h
    obtain ⟨hlen, hw⟩ | ⟨-, hw⟩ := infoWrite_cases s.infoLen.toNat b s <;> rw [hw] at ht <;> cases ht
    exact .info b hs hlen
  | rxChkMatch b => obtain ⟨hs, ⟨⟩⟩ := acceptRx_eq_next.mp h; exact .chkMatch b hs
  | rxChkMismatch b => obtain ⟨hs, ⟨⟩⟩ := acceptRx_eq_next.mp h; exact .chkMismatch b hs
  | tick =>
    cases harmed : s.armed with
    | false =>
      cases (exec_tick_of_idle harmed).symm.trans h
      exact .tickIdle harmed
    | true =>
      obtain hcount | hcount := Nat.lt_or_ge 1 s.count.toNat
      · cases (exec_tick_of_more harmed hcount).symm.trans h
        exact .tickCounts harmed hcount
      · cases (exec_tick_of_last harmed hcount).symm.trans h
        exact .tickExpires harmed hcount
  | parserReset => cases h; exact .parserReset
  | reset => cases h; exact .reset
  | cfgTimeout v => cases h; exact .cfgTimeout v
  | txData bytes => cases h; exact .txData bytes
  | txCmd payload corrupt => cases h; exact .txCmd payload corrupt
  | fold seed bytes => cases h; exact .fold seed bytes
  | tagDecode c => cases h; exact .tagDecode c
  | tagEncode v =>
    cases hv : tagEncode v with
    | none => cases (exec_tagEncode_of_none hv s).symm.trans h
    | some b =>
      cases (exec_tagEncode_of_some hv s).symm.trans h
      exact .tagEncode hv

end Sys2Proof.Machine
end

section
/-! PROOF. The single rows and events beside those of a well-formed frame: an even structural byte, `RX_INFO` beyond the reachable
states, the stop while faulted, the timer, the resets, the configuration and the functions. -/

namespace Sys2Proof.Machine

/-- Settles O12: an odd byte's key in `Escaping` selects row 4, whose re-dispatch is row 5. -/
theorem rxEscCmdArmsAndTakesTheCode : Obligations.RxEscCmdArmsAndTakesTheCode := fun _ _ hs hne hodd =>
  exec_and_deliver (exec_rxEscCmd_of_odd hs (tagBit_of_odd hodd)) (decodeKey_escaping_byte hne _)

/-- Settles O14: the three rows raise the violation, and an even byte, which is no sentinel, selects them. -/
theorem evenStructuralByteRaisesViolation : Obligations.EvenStructuralByteRaisesViolation := by
  intro s b hs heven raised
  have hne : b ≠ 0xFF := by rintro rfl; cases heven
  have hesc := exec_and_deliver (x := .escaping) (exec_rxEscCmd_of_even hs (tagBit_of_even heven))
    (decodeKey_escaping_byte hne s.chk)
  have hcode := exec_and_deliver (x := .commandCode) (exec_rxCodeBadtag_of_ready hs b) (decodeKey_code_even heven s.chk)
  have hlen := exec_and_deliver (x := .commandLength) (exec_rxLenBadtag_of_ready hs b) (decodeKey_length_even heven s.chk)
  exact ⟨hesc.1, hcode.1, hlen.1, (·.elim hesc.2 hcode.2), hlen.2⟩

/-- Settles O17: the byte is written as in reachable states, and `remaining` = 0 stays 0; the full buffer has no cell to write. -/
theorem rxInfoBeyondReachableStates : Obligations.RxInfoBeyondReachableStates := by
  refine fun s b hs hwf => ⟨fun hrem hlen => ?_, fun hfull => exec_rxInfo_of_full hs b hfull.ge⟩
  have hzero : decRemaining s.remaining = 0 := if_pos hrem
  exact ⟨s.takeInfo b, exec_rxInfo_of_ready hs b hlen, hzero, if_pos hzero, rfl, rfl,
    Memory.read_write_same hwf _ b⟩

/-- Settles O20: the test of `faulted` comes before everything else, in the row and in the delivery. -/
theorem rxIsStuckWhileFaulted : Obligations.RxIsStuckWhileFaulted := by
  refine fun s hs => ⟨fun i hi => exec_of_faulted hi hs, deliver_rx_of_faulted hs,
    fun b rest hinbox => ?_⟩
  rw [step_of_cons hinbox]
  exact deliver_rx_of_faulted (s := { s with inbox := rest }) hs b

/-- Settles O21: the two branches of the tick before the last. -/
theorem tickCountsDown : Obligations.TickCountsDown := fun _ =>
  ⟨exec_tick_of_idle, exec_tick_of_more⟩

/-- Settles O22: the branch of the last tick. -/
theorem expiryReturnsToData : Obligations.ExpiryReturnsToData := fun _ => exec_tick_of_last

/-- Settles O25: the row is one write to one register, without a test. -/
theorem cfgTimeoutSetsThePeriod : Obligations.CfgTimeoutSetsThePeriod := fun _ _ => rfl

/-- Settles O26: the parser reset writes the reset values of every register but the period, the whole reset that one too. -/
theorem resetsRestoreTheResetState : Obligations.ResetsRestoreTheResetState := fun _ => ⟨rfl, rfl⟩

/-- Settles O27: the empty buffer reads 0x00 at every index, the other registers are literals. -/
theorem resetValues : Obligations.ResetValues :=
  ⟨rfl, rfl, rfl, rfl, rfl, Memory.read_nil, rfl, rfl, rfl, rfl, rfl, rfl⟩

/-! ### The views -/

/-- The fields of the layout of `STATUS` (10_state.md R30). -/
theorem statusLayout : ∀ (faulted armed : Bool) (c : BitVec 3),
    let v : BitVec 8 := (0 : BitVec 3) ++ BitVec.ofBool faulted ++ BitVec.ofBool armed ++ c
    v.extractLsb' 0 3 = c ∧ v.getLsbD 3 = armed ∧ v.getLsbD 4 = faulted ∧ v.extractLsb' 5 3 = 0 := by
  decide

/-- The fields of the layout of `FAULT_INFO` (10_state.md R31). -/
theorem faultInfoLayout (f : BitVec 2) (b : Byte) :
    let v : BitVec 16 := (0 : BitVec 6) ++ f ++ b
    v.extractLsb' 0 8 = b ∧ v.extractLsb' 8 2 = f ∧ v.extractLsb' 10 6 = 0 := by
  have habove (i : Nat) :
      ((0 : BitVec 6) ++ f ++ b).getLsbD (8 + i) = ((0 : BitVec 6) ++ f).getLsbD i := by
    rw [BitVec.getLsbD_append, if_neg (by omega), Nat.add_sub_cancel_left]
  refine ⟨BitVec.extractLsb'_append_eq_right, ?_, ?_⟩ <;> ext i hi <;> rw [BitVec.getElem_extractLsb']
  · rw [habove, BitVec.getLsbD_append, if_pos hi, BitVec.getLsbD_eq_getElem hi]
  · rw [show 10 + i = 8 + (2 + i) by omega, habove, BitVec.getLsbD_append, if_neg (by omega)]
    simp

/-- Settles O28: `STATUS` and `FAULT_INFO` are read back field by field, the other two views are registers. -/
theorem viewsShowTheRegisters : Obligations.ViewsShowTheRegisters := by
  intro s
  obtain ⟨hst, harmed, hfaulted, hzero⟩ := statusLayout s.faulted s.armed s.st.code
  obtain ⟨hbyte, hfield, hclear⟩ := faultInfoLayout s.faultField s.faultByte
  exact ⟨hst, harmed, hfaulted, hzero, hbyte, hfield, hclear, rfl, rfl, fun hinv => hinv.countZero⟩

/-! ### The functions -/

theorem tagByte_toNat (v : Value) : (tagByte v).toNat = 2 * v.toNat + 1 := by
  revert v; decide

theorem tagDecode_tagByte (v : Value) : tagDecode (tagByte v) = some (v.setWidth 8) := by
  rw [tagDecode_of_odd (tagBit_tagByte v), tagValue_tagByte]

/-- The value field extended to a byte is the byte shifted by the tag bit (41_checksum_and_tag.md R103). -/
theorem setWidth_tagValue (c : Byte) : (tagValue c).setWidth 8 = c >>> 1 := by
  revert c; decide

/-- Settles O35: on its domain the encoder gives the tagged byte, which the decoder reads back. -/
theorem tagEncodeIsInverse : Obligations.TagEncodeIsInverse := by
  refine fun v => ⟨fun hv => ⟨_, tagEncode_of_lt hv, ?_, ?_⟩, fun hv => ?_⟩
  · rw [tagByte_toNat, BitVec.toNat_ofNat, Nat.mod_eq_of_lt hv]
  · rw [tagDecode_tagByte, BitVec.setWidth_ofNat_of_le_of_lt (by decide) hv]
  · exact ⟨tagEncode_of_ge hv, exec_tagEncode_of_none (tagEncode_of_ge hv)⟩

/-- Settles O36: the value of each function, in the form of its statement. -/
theorem functionCallsAnswerTheirValue : Obligations.FunctionCallsAnswerTheirValue := by
  refine fun s => ⟨fun _ _ => rfl, fun c => ?_, fun v hv => ?_⟩
  · have hvalue : tagDecode c = if c.toNat % 2 = 1 then some (c >>> 1) else none := by
      simp only [tagDecode, tagBit_eq, decide_eq_true_eq, setWidth_tagValue]
    rw [← hvalue]
    rfl
  · have hvalue : tagEncode v = some (BitVec.ofNat 8 (2 * v + 1)) := by
      rw [tagEncode_of_lt hv, Option.some_inj, ← BitVec.toNat_inj, tagByte_toNat, BitVec.toNat_ofNat,
        BitVec.toNat_ofNat]
      omega
    exact exec_tagEncode_of_some hvalue s

end Sys2Proof.Machine
end

section
/-! PROOF. Frames and rules over all instructions (42_stream_parser.md, 44_timer_and_control.md, 60_exceptions.md): each is read off
the effects. -/

namespace Sys2Proof.Machine

/-! ### What the rows and events leave unchanged -/

/-- Settles O37: the three rows write `st` and the outputs only. -/
theorem frameOfDataRows : Obligations.FrameOfDataRows := by
  intro i s t h hrow
  obtain rfl | ⟨b, rfl⟩ | rfl := hrow <;> cases effect_of_exec h <;> simp

/-- Settles O38: taking the code writes `cmd_code`, `info_len`, `chk` and `st`, arming writes the timer. -/
theorem frameOfCodeRows : Obligations.FrameOfCodeRows := by
  intro i b s t h hrow
  obtain ⟨rfl, hodd⟩ | rfl := hrow
  · cases effect_of_exec h with
    | escCode => simp
    | escViolation _ hb => exact absurd (tagBit_of_odd hodd) (ne_true_of_eq_false hb)
  · cases effect_of_exec h
    simp

/-- Settles O39: raising the violation writes the record, the timer and the outputs. -/
theorem frameOfViolationRows : Obligations.FrameOfViolationRows := by
  intro i b s t h hrow
  obtain rfl | rfl | ⟨rfl, heven⟩ := hrow
  · cases effect_of_exec h
    simp
  · cases effect_of_exec h
    simp
  · cases effect_of_exec h with
    | escCode _ hb => exact absurd hb (ne_true_of_eq_false (tagBit_of_even heven))
    | escViolation => simp

/-- Settles O40: the length byte writes `remaining`, `chk` and `st`, the end of the frame the timer, `st` and the outputs. -/
theorem frameOfLengthAndChecksumRows : Obligations.FrameOfLengthAndChecksumRows := by
  intro i b s t h hrow
  obtain rfl | rfl | rfl := hrow <;> cases effect_of_exec h <;> simp [State.takeLength]

/-- Settles O41: the buffer is written at `info_len` alone. -/
theorem frameOfInfoRow : Obligations.FrameOfInfoRow := by
  intro b s t h
  cases effect_of_exec h
  exact ⟨rfl, rfl, rfl, rfl, rfl, rfl, rfl, rfl, rfl, rfl,
    fun _ ha => Memory.read_write_other s.info b ha⟩

/-- Settles O42: a tick writes the timer, and `st` and the outputs at the expiry; the resets keep what the statement names. -/
theorem frameOfControlEvents : Obligations.FrameOfControlEvents := by
  intro i s t h hevent
  obtain rfl | rfl | rfl | ⟨v, rfl⟩ := hevent <;> cases effect_of_exec h <;> simp

/-- Settles O43: a request writes the outputs, a function `fnResult`. -/
theorem frameOfEncodersAndFunctions : Obligations.FrameOfEncodersAndFunctions := by
  intro i s t h hcall
  obtain ⟨l, rfl⟩ | ⟨p, c, rfl⟩ | ⟨x, l, rfl⟩ | ⟨c, rfl⟩ | ⟨v, rfl⟩ := hcall <;>
    cases effect_of_exec h <;> simp

/-! ### Outputs -/

/-- An instruction emits nothing, or one event behind those before. -/
theorem Effect.outputs {i : Instr} {s t : State} (h : Effect s i t) :
    t.outputs = s.outputs ∨ ∃ e, t.outputs = s.outputs ++ [e] := by
  cases h with
  | dataEsc | escCode | code | len | info | tickIdle | tickCounts | parserReset | reset | cfgTimeout
  | fold | tagDecode | tagEncode => exact .inl rfl
  | dataByte | escLiteral | escViolation | codeBadtag | lenBadtag | chkMatch | chkMismatch
  | tickExpires | txData | txCmd => exact .inr ⟨_, rfl⟩

theorem outputs_of_deliver {e : Event} {s t : State} (h : deliver e s = .next t) :
    t.outputs = s.outputs ∨ ∃ o, t.outputs = s.outputs ++ [o] := by
  obtain ⟨i, -, hexec⟩ := deliver_next h
  exact (effect_of_exec hexec).outputs

/-- Settles O48: a step waits, or delivers one event, which runs one instruction. -/
theorem outputsOnlyGrow : Obligations.OutputsOnlyGrow := by
  intro s t h
  cases hinbox : s.inbox with
  | nil =>
    cases (step_of_nil hinbox).symm.trans h
    exact ⟨[], (List.append_nil _).symm, by decide⟩
  | cons e rest =>
    obtain hout | ⟨o, hout⟩ := outputs_of_deliver ((step_of_cons hinbox).symm.trans h)
    · exact ⟨[], hout.trans (List.append_nil _).symm, by decide⟩
    · exact ⟨[o], hout, le_rfl⟩

/-! ### The fault record and the period -/

/-- Every instruction keeps the fault record, or raises a violation in a state without a fault, or is a reset. -/
theorem Effect.faultRecord {i : Instr} {s t : State} (h : Effect s i t) :
    (t.faulted = s.faulted ∧ t.faultField = s.faultField ∧ t.faultByte = s.faultByte) ∨
      (s.faulted = false ∧ ∃ f b, t = s.raiseViolation f b) ∨
      ((i = .parserReset ∨ i = .reset) ∧ t.faulted = false) := by
  cases h with
  | escViolation hs | codeBadtag _ hs | lenBadtag _ hs => exact .inr (.inl ⟨hs, _, _, rfl⟩)
  | parserReset => exact .inr (.inr ⟨.inl rfl, rfl⟩)
  | reset => exact .inr (.inr ⟨.inr rfl, rfl⟩)
  | _ => exact .inl ⟨rfl, rfl, rfl⟩

/-- Settles O49: of the ways an instruction can change `faulted` only the violation's sets it. -/
theorem onlyViolationsSetFaulted : Obligations.OnlyViolationsSetFaulted := by
  refine ⟨fun i s t h hs ht => ?_, fun f _ _ _ _ => by cases f <;> simp [Diag.cause]⟩
  obtain ⟨hkept, -⟩ | ⟨-, f, b, rfl⟩ | ⟨-, hreset⟩ := (effect_of_exec h).faultRecord
  · rw [hkept, hs] at ht
    cases ht
  · exact ⟨f, rfl, rfl, rfl, rfl⟩
  · rw [hreset] at ht
    cases ht

/-- Only the resets leave a fault. -/
theorem faultRecord_kept {i : Instr} {s t : State} (h : exec i s = .next t) (hs : s.faulted = true)
    (hpreset : i ≠ .parserReset) (hreset : i ≠ .reset) :
    t.faulted = true ∧ t.faultField = s.faultField ∧ t.faultByte = s.faultByte := by
  obtain ⟨hkept, hrecord⟩ | ⟨hready, -⟩ | ⟨hi, -⟩ := (effect_of_exec h).faultRecord
  · exact ⟨hkept.trans hs, hrecord⟩
  · rw [hs] at hready
    cases hready
  · exact absurd hi (not_or.mpr ⟨hpreset, hreset⟩)

/-- In a fault without a pending timer nothing is emitted but the transmit requests' own output. -/
theorem Effect.outputs_of_faulted {i : Instr} {s t : State} (h : Effect s i t) (hs : s.faulted = true)
    (harmed : s.armed = false) :
    t.outputs = s.outputs ∨ ∃ bytes, t.outputs = s.outputs ++ [.tx bytes] := by
  cases h with
  | txData | txCmd => exact .inr ⟨_, rfl⟩
  | tickExpires hpending => exact absurd harmed (ne_false_of_eq_true hpending)
  | tickIdle | tickCounts | parserReset | reset | cfgTimeout | fold | tagDecode | tagEncode =>
    exact .inl rfl
  | dataEsc hready | dataByte _ hready | escLiteral hready | escCode hready | escViolation hready
  | code _ hready | codeBadtag _ hready | len _ hready | lenBadtag _ hready | info _ hready
  | chkMatch _ hready | chkMismatch _ hready => exact absurd hready (ne_false_of_eq_true hs)

/-- Settles O50: the record is kept, and what can still be emitted is no report. -/
theorem faultIsLeftOnlyByAReset : Obligations.FaultIsLeftOnlyByAReset := by
  intro i s t h hs hpreset hreset harmed
  obtain ⟨hfaulted, hfield, hbyte⟩ := faultRecord_kept h hs hpreset hreset
  refine ⟨hfaulted, hfield, hbyte, fun d => ?_⟩
  obtain hout | ⟨bytes, hout⟩ := (effect_of_exec h).outputs_of_faulted hs harmed <;> simp [hout]

/-- Settles O53: every other instruction keeps the period. -/
theorem periodIsWrittenOnlyByConfiguration : Obligations.PeriodIsWrittenOnlyByConfiguration := by
  intro i s t h hne
  cases effect_of_exec h with
  | reset => exact .inl rfl
  | cfgTimeout v => exact .inr ⟨v, rfl, rfl, rfl, rfl⟩
  | _ => exact absurd rfl hne

/-! ### The fault from its report to the reset -/

/-- What is accepted in a fault, the resets excepted, keeps the fault. -/
theorem faulted_of_deliver {e : Event} {s t : State} (h : deliver e s = .next t) (hs : s.faulted = true)
    (hpreset : e ≠ .parserReset) (hreset : e ≠ .reset) : t.faulted = true := by
  cases e with
  | rx b => cases (deliver_rx_of_faulted hs b).symm.trans h
  | tick => exact (faultRecord_kept (i := .tick) h hs nofun nofun).1
  | parserReset => exact absurd rfl hpreset
  | reset => exact absurd rfl hreset
  | cfgTimeout v => exact (faultRecord_kept (i := .cfgTimeout v) h hs nofun nofun).1
  | txData bytes => exact (faultRecord_kept (i := .txData bytes) h hs nofun nofun).1
  | txCmd payload corrupt => exact (faultRecord_kept (i := .txCmd payload corrupt) h hs nofun nofun).1
  | reserved k => cases (deliver_reserved k s).symm.trans h

/-- A fault survives every sequence of events without a reset. -/
theorem faulted_of_deliverAll {es : List Event} {s t : State} (h : deliverAll es s = .next t)
    (hs : s.faulted = true) (hpreset : .parserReset ∉ es) (hreset : .reset ∉ es) : t.faulted = true := by
  induction es generalizing s with
  | nil => cases h; exact hs
  | cons e es ih =>
    obtain ⟨u, hu, hes⟩ := deliverAll_cons_next h
    rw [List.mem_cons, not_or] at hpreset hreset
    exact ih hes (faulted_of_deliver hu hs (Ne.symm hpreset.1) (Ne.symm hreset.1)) hpreset.2 hreset.2

/-- Settles O51: the even byte raises the violation, and the fault it sets survives what follows. -/
theorem tagRejectionHoldsUntilReset : Obligations.TagRejectionHoldsUntilReset := by
  intro s b hs heven hst
  obtain ⟨-, -, -, hcode, hlength⟩ := evenStructuralByteRaisesViolation s b hs heven
  obtain hst | hst := hst
  · refine ⟨.code, _, hcode (.inl hst), rfl, iff_of_true rfl hst, fun es u hpreset hreset hes c => ?_⟩
    exact deliver_rx_of_faulted (faulted_of_deliverAll hes rfl hpreset hreset) c
  · refine ⟨.length, _, hlength hst, rfl, iff_of_false nofun (by simp [hst]),
      fun es u hpreset hreset hes c => ?_⟩
    exact deliver_rx_of_faulted (faulted_of_deliverAll hes rfl hpreset hreset) c

end Sys2Proof.Machine
end

section
/-! PROOF. What a received byte does in the state it meets, said once (42_stream_parser.md sections 2 and 3), and the invariant of
10_state.md section 7 along every step. -/

namespace Sys2Proof.Machine

/-- The step of a received byte in a state without a fault: the row that the state and the byte select, with its effect. -/
inductive RxStep (s : State) (b : Byte) : State → Prop
  | dataEsc (hst : s.st = .data) (hb : b = 0xFF) : RxStep s b (s.goto .escaping)
  | dataByte (hst : s.st = .data) (hb : b ≠ 0xFF) : RxStep s b (s.emit (.data b))
  | escLiteral (hst : s.st = .escaping) (hb : b = 0xFF) :
      RxStep s b ((s.emit (.data Config.sentinel)).goto .data)
  | escCode (hst : s.st = .escaping) (hb : b ≠ 0xFF) (htag : tagBit b = true) :
      RxStep s b (s.arm.takeCode b)
  | escViolation (hst : s.st = .escaping) (htag : tagBit b = false) :
      RxStep s b (s.raiseViolation .code b)
  | code (hst : s.st = .commandCode) (htag : tagBit b = true) : RxStep s b (s.takeCode b)
  | codeViolation (hst : s.st = .commandCode) (htag : tagBit b = false) :
      RxStep s b (s.raiseViolation .code b)
  | len (hst : s.st = .commandLength) (htag : tagBit b = true) : RxStep s b (s.takeLength b)
  | lenViolation (hst : s.st = .commandLength) (htag : tagBit b = false) :
      RxStep s b (s.raiseViolation .length b)
  | info (hst : s.st = .commandInfo) (hlen : s.infoLen.toNat < Config.infoCap) :
      RxStep s b (s.takeInfo b)
  | chkMatch (hst : s.st = .commandChecksum) (hb : b = s.chk) :
      RxStep s b (s.endFrame (.cmd s.cmdCode s.infoList))
  | chkMismatch (hst : s.st = .commandChecksum) (hb : b ≠ s.chk) :
      RxStep s b (s.endFrame (.diag (.checksumMismatch s.cmdCode s.infoLen s.infoList)))

/-- A selected row and its effect make the step of the byte. -/
theorem rxStep_of_selects {s t : State} {b : Byte} {i : Instr} (hsel : Selects s.chk b s.st i)
    (heff : Effect s i t) : RxStep s b t := by
  generalize hst : s.st = x at hsel
  cases hsel with
  | dataEsc hb => cases heff; exact .dataEsc hst hb
  | dataByte hb => cases heff; exact .dataByte hst hb
  | escLiteral hb => cases heff; exact .escLiteral hst hb
  | escCmd hb =>
    cases heff with
    | escCode _ htag => exact .escCode hst hb htag
    | escViolation _ htag => exact .escViolation hst htag
  | code htag => cases heff; exact .code hst htag
  | codeBadtag htag => cases heff; exact .codeViolation hst htag
  | len htag => cases heff; exact .len hst htag
  | lenBadtag htag => cases heff; exact .lenViolation hst htag
  | info =>
    cases heff with
    | info _ _ hlen => exact .info hst hlen
  | chkMatch hb => cases heff; exact .chkMatch hst hb
  | chkMismatch hb => cases heff; exact .chkMismatch hst hb

/-- The row and the effect that the step of a byte stands for. -/
theorem RxStep.exists_selects {s t : State} {b : Byte} (h : RxStep s b t) (hs : s.faulted = false) :
    ∃ i, Selects s.chk b s.st i ∧ Effect s i t := by
  cases h with
  | dataEsc hst hb => exact ⟨_, hst ▸ .dataEsc hb, .dataEsc hs⟩
  | dataByte hst hb => exact ⟨_, hst ▸ .dataByte hb, .dataByte b hs⟩
  | escLiteral hst hb => exact ⟨_, hst ▸ .escLiteral hb, .escLiteral hs⟩
  | escCode hst hb htag => exact ⟨_, hst ▸ .escCmd hb, .escCode hs htag⟩
  | escViolation hst htag =>
    have hb : b ≠ 0xFF := by rintro rfl; cases htag
    exact ⟨_, hst ▸ .escCmd hb, .escViolation hs htag⟩
  | code hst htag => exact ⟨_, hst ▸ .code htag, .code b hs⟩
  | codeViolation hst htag => exact ⟨_, hst ▸ .codeBadtag htag, .codeBadtag b hs⟩
  | len hst htag => exact ⟨_, hst ▸ .len htag, .len b hs⟩
  | lenViolation hst htag => exact ⟨_, hst ▸ .lenBadtag htag, .lenBadtag b hs⟩
  | info hst hlen => exact ⟨_, hst ▸ .info, .info b hs hlen⟩
  | chkMatch hst hb => exact ⟨_, hst ▸ .chkMatch hb, .chkMatch b hs⟩
  | chkMismatch hst hb => exact ⟨_, hst ▸ .chkMismatch hb, .chkMismatch b hs⟩

/-- A received byte is accepted exactly in a state without a fault, and does what its step says. -/
theorem deliver_rx_eq_next {s t : State} {b : Byte} :
    deliver (.rx b) s = .next t ↔ s.faulted = false ∧ RxStep s b t := by
  constructor
  · intro h
    have hs : s.faulted = false := by
      cases hs : s.faulted with
      | false => rfl
      | true => cases (deliver_rx_of_faulted hs b).symm.trans h
    obtain ⟨i, hi, hexec⟩ := deliver_next h
    exact ⟨hs, rxStep_of_selects (decodeKey_eq_instr.mp hi) (effect_of_exec hexec)⟩
  · rintro ⟨hs, hstep⟩
    obtain ⟨i, hsel, heff⟩ := hstep.exists_selects hs
    exact (deliver_eq_exec (e := .rx b) (decodeKey_of_selects hsel)).trans (exec_of_effect heff)

theorem deliver_rx_of_rxStep {s t : State} {b : Byte} (hs : s.faulted = false) (h : RxStep s b t) :
    deliver (.rx b) s = .next t := deliver_rx_eq_next.mpr ⟨hs, h⟩

/-! ### The invariant -/

theorem inFrame_infoOrChecksum (r : Value) : (infoOrChecksum r).inFrame = true := by
  obtain ⟨-, h⟩ | ⟨-, h⟩ := infoOrChecksum_cases r <;> rw [h] <;> rfl

/-- Outside a frame no timer is pending. -/
theorem State.Inv.idle {s : State} (hinv : s.Inv) (hframe : s.st.inFrame = false) :
    s.armed = false ∧ s.count = 0 := by
  have harmed : s.armed = false := by
    rw [Bool.eq_false_iff]
    exact fun h => ne_true_of_eq_false hframe (hinv.armedIff.mp h).2
  exact ⟨harmed, hinv.countZero harmed⟩

/-- A state in data mode with no timer pending and a clear fault record meets the invariant with any working registers. -/
theorem State.Inv.of_data {t : State} (hwf : Memory.wf t.info = true)
    (hst : t.st = .data ∨ t.st = .escaping) (htimer : t.armed = false ∧ t.count = 0)
    (hs : t.faulted = false) (hclean : t.faultField = 0 ∧ t.faultByte = 0x00) : t.Inv := by
  obtain ⟨harmed, hcount⟩ := htimer
  obtain hst | hst := hst <;> constructor <;> simp [hwf, hst, harmed, hcount, hs, hclean, Fsm.inFrame]

/-- Settles O44: the reset state is in data mode, with everything clear. -/
theorem resetMeetsTheInvariant : Obligations.ResetMeetsTheInvariant :=
  .of_data Memory.wf_reset (.inl rfl) ⟨rfl, rfl⟩ rfl ⟨rfl, rfl⟩

/-- The code byte opens a frame: the fold so far is that of the byte, which is the tagged byte of the code. -/
theorem State.Inv.takeCode {s : State} {b : Byte} (hinv : s.Inv) (hs : s.faulted = false) (hb : b ≠ 0xFF)
    (htag : tagBit b = true) : (s.arm.takeCode b).Inv where
  infoWf := hinv.infoWf
  stLegal := .inr (.inr rfl)
  armedIff := iff_of_true rfl ⟨hs, rfl⟩
  countZero := nofun
  remainingInfo := nofun
  remainingChecksum := nofun
  lengthBound := nofun
  foldCode _ := ⟨rfl, by simp [tagByte_tagValue htag]⟩
  foldFrame := nofun
  codeEncodable _ := tagValue_le_of_ne_sentinel htag hb
  clean := hinv.clean
  record h := absurd hs (ne_false_of_eq_true h)

/-- A violation records an even byte of the field that `st` stands at, and leaves the frame without a timer. -/
theorem State.Inv.raiseViolation {s : State} {b : Byte} {f : StructField} (hinv : s.Inv)
    (htag : tagBit b = false)
    (hfield : (f.bits = 1 ∧ s.st = .escaping) ∨ (f.bits = 2 ∧ s.st = .commandLength)) :
    (s.raiseViolation f b).Inv :=
  { hinv with
    armedIff := iff_of_false nofun nofun
    countZero := fun _ => rfl
    clean := nofun
    record := fun _ => ⟨htag, hfield⟩ }

/-- A frame in progress behind its length byte meets the invariant when `st` is what `remaining` says, the bytes fit and `chk` is
their fold. -/
theorem State.Inv.of_frame {t : State} (hwf : Memory.wf t.info = true)
    (hst : t.st = infoOrChecksum t.remaining) (harmed : t.armed = true) (hs : t.faulted = false)
    (hclean : t.faultField = 0 ∧ t.faultByte = 0x00)
    (hbound : t.infoLen.toNat + t.remaining.toNat ≤ Config.maxLen)
    (hchk : t.chk = fold Config.seed ([tagByte t.cmdCode, tagByte (t.infoLen + t.remaining)] ++ t.infoList))
    (hcode : t.cmdCode.toNat ≤ Config.maxCodeEncodable) : t.Inv where
  infoWf := hwf
  stLegal := .inr (.inr (hst ▸ inFrame_infoOrChecksum _))
  armedIff := iff_of_true harmed ⟨hs, hst ▸ inFrame_infoOrChecksum _⟩
  countZero h := absurd harmed (ne_true_of_eq_false h)
  remainingInfo h := by
    obtain ⟨-, hx⟩ | ⟨hr, -⟩ := infoOrChecksum_cases t.remaining
    · cases h.symm.trans (hst.trans hx)
    · exact Nat.pos_of_ne_zero fun h0 => hr (BitVec.eq_of_toNat_eq h0)
  remainingChecksum h := by
    obtain ⟨hr, -⟩ | ⟨-, hx⟩ := infoOrChecksum_cases t.remaining
    · exact hr
    · cases h.symm.trans (hst.trans hx)
  lengthBound _ := hbound
  foldCode h := by
    obtain ⟨-, hx⟩ | ⟨-, hx⟩ := infoOrChecksum_cases t.remaining <;> cases h.symm.trans (hst.trans hx)
  foldFrame _ := hchk
  codeEncodable _ := hcode
  clean _ := hclean
  record h := absurd hs (ne_false_of_eq_true h)

/-- The length byte: nothing is received yet, and the fold grows by the tagged byte of the length. -/
theorem State.Inv.takeLength {s : State} {b : Byte} (hinv : s.Inv) (hs : s.faulted = false)
    (hst : s.st = .commandLength) (htag : tagBit b = true) : (s.takeLength b).Inv := by
  have hframe : s.st.inFrame = true := by rw [hst]; rfl
  obtain ⟨hlen, hchk⟩ := hinv.foldCode hst
  have hlist : (s.takeLength b).infoList = [] := by simp [State.infoList, State.takeLength, hlen]
  refine .of_frame hinv.infoWf rfl (hinv.armedIff.mpr ⟨hs, hframe⟩) hs (hinv.clean hs) ?_ ?_
    (hinv.codeEncodable hframe)
  · have hzero : (s.takeLength b).infoLen.toNat = 0 := congrArg BitVec.toNat hlen
    rw [hzero, Nat.zero_add]
    exact Nat.le_of_lt_succ (tagValue b).isLt
  · rw [hlist]
    simp [State.takeLength, hlen, hchk, tagByte_tagValue htag]

/-- `info_len` counts without wrapping while it is a cell of the buffer. -/
theorem infoLen_succ_toNat {n : Value} (hlen : n.toNat < Config.infoCap) : (n + 1).toNat = n.toNat + 1 :=
  BitVec.toNat_add_of_lt (Nat.succ_lt_succ hlen)

/-- An info byte is added behind those received. -/
theorem infoList_takeInfo {s : State} (hwf : Memory.wf s.info = true)
    (hlen : s.infoLen.toNat < Config.infoCap) (b : Byte) :
    (s.takeInfo b).infoList = s.infoList ++ [b] := by
  simp only [State.infoList, State.takeInfo]
  rw [infoLen_succ_toNat hlen, infoList_succ, infoList_write, Memory.read_write_same hwf]

/-- In `CommandInfo` the next cell is one of the buffer. -/
theorem State.Inv.infoLen_lt {s : State} (hinv : s.Inv) (hst : s.st = .commandInfo) :
    s.infoLen.toNat < Config.infoCap := by
  have hrem := hinv.remainingInfo hst
  have hbound : s.infoLen.toNat + s.remaining.toNat ≤ 127 := hinv.lengthBound (.inl hst)
  show s.infoLen.toNat < 127
  omega

/-- An info byte moves one from the bytes to come to the bytes received, and the fold grows by it. -/
theorem State.Inv.takeInfo {s : State} {b : Byte} (hinv : s.Inv) (hs : s.faulted = false)
    (hst : s.st = .commandInfo) : (s.takeInfo b).Inv := by
  have hframe : s.st.inFrame = true := by rw [hst]; rfl
  have hlen := hinv.infoLen_lt hst
  have hrem := hinv.remainingInfo hst
  have hbound : s.infoLen.toNat + s.remaining.toNat ≤ 127 := hinv.lengthBound (.inl hst)
  have htotal : s.infoLen + 1 + decRemaining s.remaining = s.infoLen + s.remaining := by
    rw [decRemaining_of_pos hrem]; bv_omega
  refine .of_frame (Memory.wf_write b hinv.infoWf hlen) rfl (hinv.armedIff.mpr ⟨hs, hframe⟩) hs
    (hinv.clean hs) ?_ ?_ (hinv.codeEncodable hframe)
  · show (s.infoLen + 1).toNat + (decRemaining s.remaining).toNat ≤ 127
    rw [infoLen_succ_toNat hlen, decRemaining_toNat]
    omega
  · rw [infoList_takeInfo hinv.infoWf hlen, ← List.append_assoc, fold_append]
    simp only [State.takeInfo, htotal]
    rw [hinv.foldFrame (.inl hst)]
    rfl

/-- The step of a byte keeps the invariant. -/
theorem State.Inv.rxStep {s t : State} {b : Byte} (hinv : s.Inv) (hs : s.faulted = false)
    (h : RxStep s b t) : t.Inv := by
  have idle (hst : s.st = .data ∨ s.st = .escaping) : s.armed = false ∧ s.count = 0 :=
    hinv.idle (by obtain hst | hst := hst <;> rw [hst] <;> rfl)
  have notCode (hst : s.st = .commandCode) : False := by
    have := hinv.stLegal
    simp [hst, Fsm.inFrame] at this
  cases h with
  | dataEsc hst => exact .of_data hinv.infoWf (.inr rfl) (idle (.inl hst)) hs (hinv.clean hs)
  | dataByte hst => exact .of_data hinv.infoWf (.inl hst) (idle (.inl hst)) hs (hinv.clean hs)
  | escLiteral hst => exact .of_data hinv.infoWf (.inl rfl) (idle (.inr hst)) hs (hinv.clean hs)
  | escCode hst hb htag => exact hinv.takeCode hs hb htag
  | escViolation hst htag => exact hinv.raiseViolation htag (.inl ⟨rfl, hst⟩)
  | code hst => exact (notCode hst).elim
  | codeViolation hst => exact (notCode hst).elim
  | len hst htag => exact hinv.takeLength hs hst htag
  | lenViolation hst htag => exact hinv.raiseViolation htag (.inr ⟨rfl, hst⟩)
  | info hst => exact hinv.takeInfo hs hst
  | chkMatch | chkMismatch => exact .of_data hinv.infoWf (.inl rfl) ⟨rfl, rfl⟩ hs (hinv.clean hs)

/-- A tick keeps the invariant: the timer pends only in a frame without a fault, which an expiry ends. -/
theorem State.Inv.tick {s t : State} (hinv : s.Inv) (h : deliver .tick s = .next t) : t.Inv := by
  cases effect_of_exec (i := .tick) h with
  | tickIdle => exact hinv
  | tickExpires harmed =>
    obtain ⟨hs, -⟩ := hinv.armedIff.mp harmed
    exact .of_data hinv.infoWf (.inl rfl) ⟨rfl, rfl⟩ hs (hinv.clean hs)
  | tickCounts harmed =>
    exact { hinv with countZero := fun h => absurd harmed (ne_true_of_eq_false h) }

/-- Every event keeps the invariant. -/
theorem State.Inv.deliver {e : Event} {s t : State} (hinv : s.Inv) (h : deliver e s = .next t) :
    t.Inv := by
  cases e with
  | rx b =>
    obtain ⟨hs, hstep⟩ := deliver_rx_eq_next.mp h
    exact hinv.rxStep hs hstep
  | tick => exact hinv.tick h
  | parserReset | reset =>
    cases h
    exact .of_data rfl (.inl rfl) ⟨rfl, rfl⟩ rfl ⟨rfl, rfl⟩
  | cfgTimeout | txData | txCmd =>
    cases h
    exact { hinv with }
  | reserved k => cases (deliver_reserved k s).symm.trans h

/-- Settles O45: a step delivers one event, and neither the inbox nor the outputs are in the invariant. -/
theorem everyStepKeepsTheInvariant : Obligations.EveryStepKeepsTheInvariant := by
  intro s t hinv h
  cases hinbox : s.inbox with
  | nil =>
    cases (step_of_nil hinbox).symm.trans h
    exact hinv
  | cons e rest =>
    have hrest : State.Inv { s with inbox := rest } := { hinv with }
    exact hrest.deliver ((step_of_cons hinbox).symm.trans h)

/-! ### The reachable states -/

/-- The invariant holds at reset and every event keeps it. -/
theorem Reachable.inv {s : State} (h : Reachable s) : s.Inv := by
  induction h with
  | reset => exact resetMeetsTheInvariant
  | deliver e _ ht ih => exact ih.deliver ht

theorem inFrame_eq_true {x : Fsm} :
    x.inFrame = true ↔ x = .commandLength ∨ x = .commandInfo ∨ x = .commandChecksum := by
  cases x <;> simp [Fsm.inFrame]

/-- Settles O46: each clause is a clause of the invariant, in the spec's words. -/
theorem reachableStatesMeetTheSpecsInvariants : Obligations.ReachableStatesMeetTheSpecsInvariants := by
  intro s hreach
  have hinv := hreach.inv
  refine ⟨?_, ?_, hinv.countZero, fun hst => ⟨hinv.remainingInfo hst, hinv.infoLen_lt hst⟩,
    hinv.remainingChecksum, ?_⟩
  · obtain hst | hst | hframe := hinv.stLegal
    · simp [hst]
    · simp [hst]
    · obtain hst | hst | hst := inFrame_eq_true.mp hframe <;> simp [hst]
  · rw [← inFrame_eq_true]
    exact hinv.armedIff
  · cases hs : s.faulted with
    | false => rw [(hinv.clean hs).1]; decide
    | true => obtain ⟨-, ⟨hfield, -⟩ | ⟨hfield, -⟩⟩ := hinv.record hs <;> rw [hfield] <;> decide

/-! ### Where a step can stop -/

/-- Under the invariant and without a fault every byte has a step. -/
theorem State.Inv.exists_rxStep {s : State} (hinv : s.Inv) (b : Byte) : ∃ t, RxStep s b t := by
  obtain hst | hst | hframe := hinv.stLegal
  · exact (eq_or_ne b 0xFF).elim (⟨_, .dataEsc hst ·⟩) (⟨_, .dataByte hst ·⟩)
  · obtain hb | hb := eq_or_ne b 0xFF
    · exact ⟨_, .escLiteral hst hb⟩
    · exact (Bool.eq_false_or_eq_true (tagBit b)).elim (⟨_, .escCode hst hb ·⟩) (⟨_, .escViolation hst ·⟩)
  · obtain hst | hst | hst := inFrame_eq_true.mp hframe
    · exact (Bool.eq_false_or_eq_true (tagBit b)).elim (⟨_, .len hst ·⟩) (⟨_, .lenViolation hst ·⟩)
    · exact ⟨_, .info hst (hinv.infoLen_lt hst)⟩
    · exact (eq_or_ne b s.chk).elim (⟨_, .chkMatch hst ·⟩) (⟨_, .chkMismatch hst ·⟩)

theorem exists_deliver_tick (s : State) : ∃ t, deliver .tick s = .next t := by
  cases harmed : s.armed with
  | false => exact ⟨_, exec_tick_of_idle harmed⟩
  | true =>
    obtain hcount | hcount := Nat.lt_or_ge 1 s.count.toNat
    · exact ⟨_, exec_tick_of_more harmed hcount⟩
    · exact ⟨_, exec_tick_of_last harmed hcount⟩

/-- Settles O47: every other event is accepted in every state, and a byte wherever the invariant holds without a fault. -/
theorem stepsStopOnlyAsNamed : Obligations.StepsStopOnlyAsNamed := by
  intro s hinv
  cases hinbox : s.inbox with
  | nil => exact .inl ⟨s, step_of_nil hinbox⟩
  | cons e rest =>
    rw [step_of_cons hinbox]
    have hrest : State.Inv { s with inbox := rest } := { hinv with }
    cases e with
    | rx b =>
      obtain hs | hs := Bool.eq_false_or_eq_true s.faulted
      · exact .inr (.inl ⟨b, rest, rfl, hs, deliver_rx_of_faulted (s := { s with inbox := rest }) hs b⟩)
      · obtain ⟨t, ht⟩ := hrest.exists_rxStep b
        exact .inl ⟨t, deliver_rx_of_rxStep hs ht⟩
    | tick => exact .inl (exists_deliver_tick _)
    | parserReset | reset | cfgTimeout | txData | txCmd => exact .inl ⟨_, rfl⟩
    | reserved k => exact .inr (.inr ⟨k, rest, rfl, deliver_reserved k _⟩)

end Sys2Proof.Machine
end

section
/-! PROOF. The laws of the checksum and of the data encoder (41_checksum_and_tag.md section 1, 43_frame_codec.md section 1). -/

namespace Sys2Proof.Machine

/-- The fold does not depend on the order of the bytes: XOR is associative and commutative. -/
theorem fold_perm (seed : Byte) {l l' : List Byte} (h : l.Perm l') : fold seed l = fold seed l' :=
  h.foldl_eq' (fun x _ y _ acc => by rw [BitVec.xor_assoc, BitVec.xor_comm x y, BitVec.xor_assoc]) seed

/-- A byte and a fold give 0 together exactly when they are equal. -/
theorem fold_singleton_eq_zero (acc c : Byte) : fold acc [c] = 0 ↔ c = acc := by
  rw [fold_cons, fold_nil, eq_comm (a := c)]
  exact BitVec.xor_eq_zero_iff

/-- Settles O33: the fold is a left fold of XOR, and XOR with all ones is the complement. -/
theorem foldLaws : Obligations.FoldLaws := by
  refine ⟨fold_append, fun s _ _ => fold_perm s, fun s l c => fold_singleton_eq_zero (fold s l) c,
    fun s l k hk => ?_⟩
  have hone : (0xFF : Byte).getLsbD k = true := by
    rw [show (0xFF : Byte) = BitVec.allOnes 8 from rfl, BitVec.getLsbD_allOnes, decide_eq_true hk]
  rw [BitVec.getLsbD_xor, hone, Bool.xor_true]

/-- The encoder adds one byte for each sentinel. -/
theorem length_encodeData (bytes : List Byte) :
    (encodeData bytes).length = bytes.length + bytes.count 0xFF := by
  induction bytes with
  | nil => rfl
  | cons b bytes ih =>
    by_cases hb : b = Config.sentinel
    · rw [hb, encodeData_sentinel, List.count_cons_self]
      simp only [List.length_cons, ih]
      omega
    · rw [encodeData_other hb, List.count_cons_of_ne hb, List.length_cons, ih, List.length_cons]
      exact Nat.add_right_comm _ _ 1

/-- Settles O30: the length is counted byte by byte, and the encoder looks at each byte alone. -/
theorem encodeDataLaws : Obligations.EncodeDataLaws := by
  refine ⟨length_encodeData, fun a b => ?_⟩
  simp only [encodeData_eq_flatMap, List.flatMap_append]

end Sys2Proof.Machine
end

section
/-! PROOF. The timer over several ticks (44_timer_and_control.md sections 1 and 4), and the outcome of a frame
(42_stream_parser.md section 4). -/

namespace Sys2Proof.Machine

/-- What follows a sequence that is accepted runs in the state it ends in. -/
theorem deliverAll_append {es : List Event} {s t : State} (h : deliverAll es s = .next t)
    (fs : List Event) : deliverAll (es ++ fs) s = deliverAll fs t := by
  induction es generalizing s with
  | nil => cases h; rfl
  | cons e es ih =>
    obtain ⟨u, hu, hes⟩ := deliverAll_cons_next h
    rw [List.cons_append, deliverAll_cons_of_next hu, ih hes]

theorem deliverAll_singleton {e : Event} {s t : State} (h : deliver e s = .next t) :
    deliverAll [e] s = .next t := deliverAll_cons_of_next h []

/-- Ticks short of the last one only count. -/
theorem deliverAll_ticks {s : State} (harmed : s.armed = true) {k : Nat} (hk : k < max s.count.toNat 1) :
    deliverAll (List.replicate k .tick) s = .next { s with count := s.count - BitVec.ofNat 16 k } := by
  induction k with
  | zero => simp
  | succ k ih =>
    have hlt : k + 1 < s.count.toNat := by omega
    have hleft : (s.count - BitVec.ofNat 16 k).toNat = s.count.toNat - k := by bv_omega
    have htick := exec_tick_of_more (s := { s with count := s.count - BitVec.ofNat 16 k }) harmed
      (hleft ▸ by omega)
    have hnext : s.count - BitVec.ofNat 16 k - 1 = s.count - BitVec.ofNat 16 (k + 1) := by bv_omega
    rw [List.replicate_succ', deliverAll_append (ih (by omega)), ← hnext]
    exact deliverAll_singleton htick

/-- Settles O23: after `max(count, 1) - 1` ticks at most one is left, and the next expires. -/
theorem expiryAtTheLastTick : Obligations.ExpiryAtTheLastTick := by
  refine fun s harmed => ⟨fun k => deliverAll_ticks harmed, ?_⟩
  obtain ⟨k, hk⟩ : ∃ k, max s.count.toNat 1 = k + 1 := ⟨max s.count.toNat 1 - 1, by omega⟩
  have hcount : (s.count - BitVec.ofNat 16 k).toNat ≤ 1 := by bv_omega
  rw [hk, List.replicate_succ', deliverAll_append (deliverAll_ticks harmed (by omega))]
  exact deliverAll_singleton
    (exec_tick_of_last (s := { s with count := s.count - BitVec.ofNat 16 k }) harmed hcount)

/-- A sequence of events only adds to the outputs. -/
theorem outputs_prefix_of_deliverAll {es : List Event} {s t : State} (h : deliverAll es s = .next t) :
    s.outputs <+: t.outputs := by
  induction es generalizing s with
  | nil => cases h; exact List.prefix_refl _
  | cons e es ih =>
    obtain ⟨u, hu, hes⟩ := deliverAll_cons_next h
    obtain hout | ⟨o, hout⟩ := outputs_of_deliver hu
    · exact hout ▸ ih hes
    · exact (hout ▸ List.prefix_append _ _ : s.outputs <+: u.outputs).trans (ih hes)

/-- When a sequence emits nothing, its first event emits nothing either. -/
theorem outputs_eq_of_deliverAll {es : List Event} {s u t : State} (hes : deliverAll es u = .next t)
    (hu : s.outputs <+: u.outputs) (hout : t.outputs = s.outputs) : u.outputs = s.outputs :=
  have hle := hout ▸ (outputs_prefix_of_deliverAll hes).length_le
  (hu.eq_of_length (hu.length_le.antisymm hle)).symm

/-- A byte in a frame goes on with the frame and touches neither the timer nor the outputs, or ends it with one `CMD` or
`DIAG`. -/
theorem RxStep.inFrame {s t : State} {b : Byte} (hframe : s.st.inFrame = true) (h : RxStep s b t) :
    (t.st.inFrame = true ∧ t.faulted = s.faulted ∧ t.armed = s.armed ∧ t.count = s.count ∧
        t.outputs = s.outputs) ∨
      ((t.st = .data ∨ t.faulted = true) ∧ ∃ o, t.outputs = s.outputs ++ [o] ∧ endsFrame o = true) := by
  cases h with
  | dataEsc hst | dataByte hst | escLiteral hst | escCode hst | escViolation hst | code hst
  | codeViolation hst =>
    rw [hst] at hframe
    cases hframe
  | len | info => exact .inl ⟨inFrame_infoOrChecksum _, rfl, rfl, rfl, rfl⟩
  | lenViolation => exact .inr ⟨.inr rfl, _, rfl, rfl⟩
  | chkMatch | chkMismatch => exact .inr ⟨.inl rfl, _, rfl, rfl⟩

/-- Settles O54: a byte goes on with the frame or ends it, a tick counts or expires, and no other event but a reset ends it. -/
theorem oneOutcomePerFrame : Obligations.OneOutcomePerFrame := by
  intro e s t _ hs hframe h
  cases e with
  | rx b =>
    obtain ⟨hst, hfaulted, -, -, hout⟩ | hend := (deliver_rx_eq_next.mp h).2.inFrame hframe
    · exact .inl ⟨hst, hfaulted.trans hs, .inl hout⟩
    · exact .inr (.inl hend)
  | tick =>
    cases effect_of_exec (i := .tick) h with
    | tickIdle | tickCounts => exact .inl ⟨hframe, hs, .inl rfl⟩
    | tickExpires => exact .inr (.inl ⟨.inl rfl, _, rfl, rfl⟩)
  | parserReset => cases h; exact .inr (.inr ⟨.inl rfl, rfl, rfl⟩)
  | reset => cases h; exact .inr (.inr ⟨.inr rfl, rfl, rfl⟩)
  | cfgTimeout => cases h; exact .inl ⟨hframe, hs, .inl rfl⟩
  | txData | txCmd => cases h; exact .inl ⟨hframe, hs, .inr ⟨_, rfl⟩⟩
  | reserved k => cases (deliver_reserved k s).symm.trans h

/-- A state in a frame, its timer pending. -/
structure State.InFrame (s : State) : Prop where
  inFrame : s.st.inFrame = true
  ready : s.faulted = false
  armed : s.armed = true

/-- A byte or a tick that emits nothing goes on with the frame, and only the tick takes one off `count`. -/
theorem State.InFrame.deliver {e : Event} {s t : State} (hs : s.InFrame) (he : isRxOrTick e = true)
    (h : deliver e s = .next t) (hout : t.outputs = s.outputs) :
    t.InFrame ∧ t.count.toNat + ticksIn [e] = s.count.toNat := by
  cases e with
  | rx b =>
    obtain ⟨hst, hfaulted, harmed, hcount, -⟩ | ⟨-, o, ho, -⟩ :=
      (deliver_rx_eq_next.mp h).2.inFrame hs.inFrame
    · exact ⟨⟨hst, hfaulted.trans hs.ready, harmed.trans hs.armed⟩, congrArg BitVec.toNat hcount⟩
    · simp [ho] at hout
  | tick =>
    cases effect_of_exec (i := .tick) h with
    | tickIdle harmed => exact absurd hs.armed (ne_true_of_eq_false harmed)
    | tickExpires => simp at hout
    | tickCounts _ hcount =>
      refine ⟨⟨hs.inFrame, hs.ready, hs.armed⟩, ?_⟩
      simp only [ticksIn]
      bv_omega
  | parserReset | reset | cfgTimeout | txData | txCmd | reserved => cases he

/-- Bytes and ticks that emit nothing leave the frame in progress, with the ticks taken off `count`. -/
theorem State.InFrame.deliverAll {es : List Event} {s t : State} (hs : s.InFrame)
    (hes : es.all isRxOrTick = true) (h : deliverAll es s = .next t) (hout : t.outputs = s.outputs) :
    t.InFrame ∧ t.count.toNat + ticksIn es = s.count.toNat := by
  induction es generalizing s with
  | nil => cases h; exact ⟨hs, rfl⟩
  | cons e es ih =>
    obtain ⟨u, hu, hrest⟩ := deliverAll_cons_next h
    rw [List.all_cons, Bool.and_eq_true] at hes
    have hprefix : s.outputs <+: u.outputs := outputs_prefix_of_deliverAll (deliverAll_singleton hu)
    have huout := outputs_eq_of_deliverAll hrest hprefix hout
    obtain ⟨huframe, hucount⟩ := hs.deliver hes.1 hu huout
    obtain ⟨htframe, htcount⟩ := ih huframe hes.2 hrest (hout.trans huout.symm)
    refine ⟨htframe, ?_⟩
    cases e <;> simp only [ticksIn] at hucount ⊢ <;> omega

/-- A code byte that emits nothing opens a frame, with the whole period to run. -/
theorem inFrame_of_codeByte {s t : State} {b : Byte} (hs : s.faulted = false) (hst : s.st = .escaping)
    (hb : b ≠ 0xFF) (h : deliver (.rx b) s = .next t) (hout : t.outputs = s.outputs) :
    t.InFrame ∧ t.count = s.timeoutTicks := by
  cases (deliver_rx_eq_next.mp h).2 with
  | escCode => exact ⟨⟨rfl, hs, rfl⟩, rfl⟩
  | escLiteral _ hsentinel => exact absurd hsentinel hb
  | escViolation => simp at hout
  | dataEsc hst' | dataByte hst' | code hst' | codeViolation hst' | len hst' | lenViolation hst'
  | info hst' | chkMatch hst' | chkMismatch hst' => cases hst.symm.trans hst'

/-- Settles O24: the code byte opens a frame, whose timer the ticks bring to its last, and the next one expires it. -/
theorem timeoutRecovery : Obligations.TimeoutRecovery := by
  intro s t b c es hs hst hb hc hes hticks h hout _
  obtain ⟨u, hu, hrest⟩ := deliverAll_cons_next h
  have huout := outputs_eq_of_deliverAll hrest
    (outputs_prefix_of_deliverAll (deliverAll_singleton hu)) hout
  obtain ⟨huframe, hucount⟩ := inFrame_of_codeByte hs hst hb hu huout
  obtain ⟨htframe, htcount⟩ := huframe.deliverAll hes hrest (hout.trans huout.symm)
  have hlast : t.count.toNat ≤ 1 := by rw [hucount] at htcount; omega
  have htick : deliver .tick t = .next t.expire := exec_tick_of_last htframe.armed hlast
  have hbyte : deliver (.rx c) t.expire = .next (t.expire.emit (.data c)) :=
    deliver_rx_of_rxStep htframe.ready (.dataByte rfl hc)
  rw [← hout]
  refine ⟨htick, (deliverAll_cons_of_next htick _).trans ((deliverAll_singleton hbyte).trans ?_)⟩
  rw [← List.singleton_append, ← List.append_assoc]
  rfl

end Sys2Proof.Machine
end

section
/-! PROOF. The transmitted stream (20_memory.md sections 1 and 3). -/

namespace Sys2Proof.Machine

/-- One more output puts its own bytes behind the stream. -/
theorem txStream_append (outputs : List OutEvent) (o : OutEvent) :
    txStream (outputs ++ [o]) = txStream outputs ++ wireBytes o := by
  simp [txStream]

/-- A received byte puts nothing on the wire: what it emits is `DATA`, `CMD` or `DIAG`. -/
theorem RxStep.txStream {s t : State} {b : Byte} (h : RxStep s b t) :
    txStream t.outputs = txStream s.outputs := by
  cases h with
  | dataEsc | escCode | code | len | info => rfl
  | dataByte | escLiteral | escViolation | codeViolation | lenViolation | chkMatch | chkMismatch =>
    exact (txStream_append _ _).trans (List.append_nil _)

/-- Settles O60: a request emits its encoding, and no other event puts a byte on the wire. -/
theorem transmittedStreamIsInRequestOrder : Obligations.TransmittedStreamIsInRequestOrder := by
  intro e s t h
  cases e with
  | rx b => exact (deliver_rx_eq_next.mp h).2.txStream.trans (List.append_nil _).symm
  | tick =>
    cases effect_of_exec (i := .tick) h with
    | tickIdle | tickCounts => exact (List.append_nil _).symm
    | tickExpires => exact txStream_append _ _
  | parserReset | reset | cfgTimeout => cases h; exact (List.append_nil _).symm
  | txData | txCmd => cases h; exact txStream_append _ _
  | reserved k => cases (deliver_reserved k s).symm.trans h

end Sys2Proof.Machine
end

section
/-! PROOF. Received data and received frames (42_stream_parser.md section 4): without ticks a frame is its bytes' rows one after
the other, and ticks among the bytes change nothing but `count`. -/

namespace Sys2Proof.Machine

/-! ### Ticks without a pending timer -/

theorem deliver_tick_of_idle {s : State} (harmed : s.armed = false) : deliver .tick s = .next s :=
  exec_tick_of_idle harmed

theorem deliver_tick_of_more {s : State} (harmed : s.armed = true) (hcount : 1 < s.count.toNat) :
    deliver .tick s = .next { s with count := s.count - 1 } := exec_tick_of_more harmed hcount

/-- Without a pending timer ticks alone do nothing. -/
theorem deliverAll_of_no_bytes {es : List Event} {s : State} (harmed : s.armed = false)
    (hes : es.all isRxOrTick = true) (hbytes : rxBytesOf es = []) : deliverAll es s = .next s := by
  induction es with
  | nil => rfl
  | cons e es ih =>
    rw [List.all_cons, Bool.and_eq_true] at hes
    cases e with
    | rx => cases hbytes
    | tick => exact (deliverAll_cons_of_next (deliver_tick_of_idle harmed) es).trans (ih hes.2 hbytes)
    | parserReset | reset | cfgTimeout | txData | txCmd | reserved => cases hes.1

/-- Without a pending timer the ticks before the next byte do nothing. -/
theorem deliverAll_skip_ticks {es : List Event} {s t : State} {b : Byte} {rest : List Byte}
    (harmed : s.armed = false) (hes : es.all isRxOrTick = true) (hbytes : rxBytesOf es = b :: rest)
    (hbyte : deliver (.rx b) s = .next t) :
    ∃ es', deliverAll es s = deliverAll es' t ∧ es'.all isRxOrTick = true ∧ rxBytesOf es' = rest := by
  induction es with
  | nil => cases hbytes
  | cons e es ih =>
    rw [List.all_cons, Bool.and_eq_true] at hes
    cases e with
    | rx => cases hbytes; exact ⟨es, deliverAll_cons_of_next hbyte es, hes.2, rfl⟩
    | tick =>
      obtain ⟨es', hrun, hrest⟩ := ih hes.2 hbytes
      exact ⟨es', (deliverAll_cons_of_next (deliver_tick_of_idle harmed) es).trans hrun, hrest⟩
    | parserReset | reset | cfgTimeout | txData | txCmd | reserved => cases hes.1

/-! ### Data mode -/

theorem deliver_sentinel {s : State} (hs : s.faulted = false) (hst : s.st = .data) :
    deliver (.rx 0xFF) s = .next (s.goto .escaping) := (rxDataEscEntersEscaping s hs).2 hst

/-- The second sentinel of a pair is data, and the state is the one before the pair. -/
theorem deliver_literal {s : State} (hs : s.faulted = false) (hst : s.st = .data) :
    deliver (.rx 0xFF) (s.goto .escaping) = .next (s.emit (.data 0xFF)) := by
  have hback : ((s.goto .escaping).emit (.data 0xFF)).goto .data = s.emit (.data 0xFF) := by
    rw [State.goto, State.emit, State.emit, ← hst]; rfl
  rw [← hback]
  exact (rxEscLiteralDeliversTheSentinel (s.goto .escaping) hs).2 rfl

/-- The encoding of one byte, ticks among it, is one `DATA`: an ordinary byte is one row, a sentinel two. -/
theorem deliverAll_encoded_byte {es : List Event} {s : State} {x : Byte} {rest : List Byte}
    (hst : s.st = .data) (hs : s.faulted = false) (harmed : s.armed = false)
    (hes : es.all isRxOrTick = true) (hbytes : rxBytesOf es = encodeData (x :: rest)) :
    ∃ es', deliverAll es s = deliverAll es' (s.emit (.data x)) ∧ es'.all isRxOrTick = true ∧
      rxBytesOf es' = encodeData rest := by
  by_cases hx : x = Config.sentinel
  · subst hx
    obtain ⟨es', hfirst, hes', hbytes'⟩ :=
      deliverAll_skip_ticks harmed hes hbytes (deliver_sentinel hs hst)
    obtain ⟨es'', hsecond, hrest⟩ :=
      deliverAll_skip_ticks (s := s.goto .escaping) harmed hes' hbytes' (deliver_literal hs hst)
    exact ⟨es'', hfirst.trans hsecond, hrest⟩
  · rw [encodeData_other hx] at hbytes
    exact deliverAll_skip_ticks harmed hes hbytes (deliver_rx_of_rxStep hs (.dataByte hst hx))

/-- Settles O55: every encoded byte comes back to the state before with one `DATA` more. -/
theorem dataRoundTrip : Obligations.DataRoundTrip := by
  intro s bytes es hst hs harmed hes hbytes
  induction bytes generalizing s es with
  | nil =>
    rw [List.map_nil, List.append_nil]
    exact deliverAll_of_no_bytes harmed hes hbytes
  | cons x xs ih =>
    obtain ⟨es', hbyte, hes', hbytes'⟩ := deliverAll_encoded_byte hst hs harmed hes hbytes
    rw [hbyte, ih (s.emit (.data x)) es' hst hs harmed hes' hbytes', List.map_cons, State.emit_outputs,
      List.append_assoc]
    rfl

/-! ### A frame, byte by byte -/

/-- What `info` bytes do to a frame that waits for them. -/
structure ReceivedInfo (s : State) (info : List Byte) (t : State) : Prop where
  st : t.st = .commandChecksum
  infoList : t.infoList = s.infoList ++ info
  infoLen : t.infoLen.toNat = s.infoLen.toNat + info.length
  chk : t.chk = fold s.chk info
  cmdCode : t.cmdCode = s.cmdCode
  faulted : t.faulted = false
  outputs : t.outputs = s.outputs

/-- As many info bytes as `remaining` says, with room for them, bring the frame to its checksum byte. -/
theorem deliverAll_info {s : State} {info : List Byte} (hs : s.faulted = false)
    (hwf : Memory.wf s.info = true) (hst : s.st = infoOrChecksum s.remaining)
    (hrem : s.remaining.toNat = info.length) (hroom : s.infoLen.toNat + info.length ≤ Config.maxLen) :
    ∃ t, deliverAll (rxEvents info) s = .next t ∧ ReceivedInfo s info t := by
  induction info generalizing s with
  | nil =>
    have hzero : s.remaining = 0 := BitVec.eq_of_toNat_eq hrem
    exact ⟨s, rfl, hst.trans (if_pos hzero), (List.append_nil _).symm, rfl, rfl, rfl, hs, rfl⟩
  | cons b info ih =>
    rw [List.length_cons] at hrem hroom
    have hlen : s.infoLen.toNat < Config.infoCap := by
      show s.infoLen.toNat < 127
      have : s.infoLen.toNat + (info.length + 1) ≤ 127 := hroom
      omega
    have hinfo : s.st = .commandInfo := by
      refine hst.trans (if_neg fun hzero => ?_)
      rw [hzero] at hrem
      cases hrem
    have hnextLen : (s.takeInfo b).infoLen.toNat = s.infoLen.toNat + 1 := infoLen_succ_toNat hlen
    have hnextRem : (s.takeInfo b).remaining.toNat = info.length := by
      rw [show (s.takeInfo b).remaining = decRemaining s.remaining from rfl, decRemaining_toNat, hrem]
      rfl
    obtain ⟨t, hrun, ht⟩ := ih (s := s.takeInfo b) hs (Memory.wf_write b hwf hlen) rfl hnextRem
      (by rw [hnextLen]; omega)
    refine ⟨t, ?_, ht.st, ?_, ?_, ht.chk, ht.cmdCode, ht.faulted, ht.outputs⟩
    · exact (deliverAll_cons_of_next (deliver_rx_of_rxStep hs (.info hinfo hlen)) _).trans hrun
    · rw [ht.infoList, infoList_takeInfo hwf hlen, List.append_assoc]
      rfl
    · rw [ht.infoLen, hnextLen, List.length_cons]
      omega

/-- The checksum byte ends the frame, by whether it is the fold so far. -/
theorem deliver_checksum {s : State} (hs : s.faulted = false) (hst : s.st = .commandChecksum) (k : Byte) :
    deliver (.rx k) s = .next (s.endFrame (if k = s.chk then .cmd s.cmdCode s.infoList
      else .diag (.checksumMismatch s.cmdCode s.infoLen s.infoList))) := by
  split
  · next hk => exact deliver_rx_of_rxStep hs (.chkMatch hst hk)
  · next hk => exact deliver_rx_of_rxStep hs (.chkMismatch hst hk)

theorem rxEvents_append (a b : List Byte) : rxEvents (a ++ b) = rxEvents a ++ rxEvents b :=
  List.map_append

/-- The code byte and the length byte of a frame, and the frame that they leave to come. -/
theorem deliverAll_header {s : State} {c n : Byte} (hs : s.faulted = false) (hst : s.st = .escaping)
    (hc : c ≠ 0xFF) (hcodd : tagBit c = true) (hnodd : tagBit n = true) :
    deliverAll (rxEvents [c, n]) s = .next ((s.arm.takeCode c).takeLength n) :=
  (deliverAll_cons_of_next (deliver_rx_of_rxStep hs (.escCode hst hc hcodd)) _).trans
    (deliverAll_singleton (deliver_rx_of_rxStep (s := s.arm.takeCode c) hs (.len rfl hnodd)))

/-- A frame after its sentinel, with intact structure, ends in data mode with one event. -/
theorem deliverAll_frame {s : State} {c n : Byte} {info : List Byte} (hs : s.faulted = false)
    (hst : s.st = .escaping) (hwf : Memory.wf s.info = true) (hc : c ≠ 0xFF) (hodd : c.toNat % 2 = 1)
    (hn : n.toNat = 2 * info.length + 1) (k : Byte) :
    ∃ t, deliverAll (rxEvents ([c, n] ++ info ++ [k])) s = .next t ∧ t.st = .data ∧ t.armed = false ∧
      t.faulted = false ∧
      t.outputs = s.outputs ++
        [if fold 0xFF ([c, n] ++ info ++ [k]) = 0 then .cmd (tagValue c) info
        else .diag (.checksumMismatch (tagValue c) (BitVec.ofNat 7 info.length) info)] := by
  have hheader := deliverAll_header hs hst hc (tagBit_of_odd hodd) (tagBit_of_odd (b := n) (by omega))
  have hrem : (tagValue n).toNat = info.length := by rw [tagValue_toNat]; omega
  have hroom : 0 + info.length ≤ 127 := by have := (tagValue n).isLt; omega
  obtain ⟨t, hinfo, ht⟩ :=
    deliverAll_info (s := (s.arm.takeCode c).takeLength n) (info := info) hs hwf rfl hrem hroom
  have hlist : t.infoList = info := ht.infoList
  have hlen : t.infoLen = BitVec.ofNat 7 info.length := by
    have hnat : t.infoLen.toNat = 0 + info.length := ht.infoLen
    rw [← Nat.zero_add info.length, ← hnat, BitVec.ofNat_toNat, BitVec.setWidth_eq]
  have hcmd : t.cmdCode = tagValue c := ht.cmdCode
  have hfits : fold 0xFF ([c, n] ++ info ++ [k]) = 0 ↔ k = t.chk := by
    rw [fold_append, fold_singleton_eq_zero, fold_append, ht.chk]
    rfl
  have hend := deliver_checksum ht.faulted ht.st k
  rw [if_congr hfits.symm rfl rfl, hcmd, hlist, hlen] at hend
  have hbefore : deliverAll (rxEvents ([c, n] ++ info)) s = .next t := by
    rw [rxEvents_append, deliverAll_append hheader, hinfo]
  refine ⟨_, ?_, State.endFrame_st t _, State.endFrame_armed t _, ht.faulted,
    congrArg (· ++ [_]) ht.outputs⟩
  rw [rxEvents_append, deliverAll_append hbefore]
  exact deliverAll_singleton hend

/-- Settles O57: the sentinel opens the frame, whose fold the checksum byte completes. -/
theorem frameIsAcceptedWhenItFoldsToZero : Obligations.FrameIsAcceptedWhenItFoldsToZero := by
  intro s c n k info hst hs hwf hc hodd hn
  obtain ⟨t, hrun, htst, -, -, hout⟩ := deliverAll_frame (s := s.goto .escaping) hs rfl hwf hc hodd hn k
  exact ⟨t, (deliverAll_cons_of_next (deliver_sentinel hs hst) _).trans hrun, htst, hout⟩

/-! ### Ticks among the bytes of a frame -/

/-- A byte's step reads `count` nowhere: it keeps it, loads the period while it arms the timer, or clears it while it cancels. -/
theorem RxStep.withCount {s t : State} {b : Byte} (h : RxStep s b t) (c : Ticks) :
    ∃ c', RxStep { s with count := c } b { t with count := c' } ∧ t.timeoutTicks = s.timeoutTicks ∧
      (t.armed = true → c' = s.timeoutTicks ∨ (s.armed = true ∧ c' = c)) := by
  cases h with
  | dataEsc hst hb => exact ⟨c, .dataEsc hst hb, rfl, fun h => .inr ⟨h, rfl⟩⟩
  | dataByte hst hb => exact ⟨c, .dataByte hst hb, rfl, fun h => .inr ⟨h, rfl⟩⟩
  | escLiteral hst hb => exact ⟨c, .escLiteral hst hb, rfl, fun h => .inr ⟨h, rfl⟩⟩
  | escCode hst hb htag => exact ⟨s.timeoutTicks, .escCode hst hb htag, rfl, fun _ => .inl rfl⟩
  | escViolation hst htag => exact ⟨0, .escViolation hst htag, rfl, nofun⟩
  | code hst htag => exact ⟨c, .code hst htag, rfl, fun h => .inr ⟨h, rfl⟩⟩
  | codeViolation hst htag => exact ⟨0, .codeViolation hst htag, rfl, nofun⟩
  | len hst htag => exact ⟨c, .len hst htag, rfl, fun h => .inr ⟨h, rfl⟩⟩
  | lenViolation hst htag => exact ⟨0, .lenViolation hst htag, rfl, nofun⟩
  | info hst hlen => exact ⟨c, .info hst hlen, rfl, fun h => .inr ⟨h, rfl⟩⟩
  | chkMatch hst hb => exact ⟨0, .chkMatch hst hb, rfl, nofun⟩
  | chkMismatch hst hb => exact ⟨0, .chkMismatch hst hb, rfl, nofun⟩

/-- Ticks that fit into the pending window, and into a whole one, change nothing but `count`. -/
theorem deliverAll_with_ticks {es : List Event} {s t : State} (c : Ticks) (hes : es.all isRxOrTick = true)
    (hrun : deliverAll (rxEvents (rxBytesOf es)) s = .next t)
    (hperiod : ticksIn es < max s.timeoutTicks.toNat 1)
    (hcount : s.armed = true → ticksIn es < max c.toNat 1) :
    ∃ c', deliverAll es { s with count := c } = .next { t with count := c' } := by
  induction es generalizing s c with
  | nil => cases hrun; exact ⟨c, rfl⟩
  | cons e es ih =>
    rw [List.all_cons, Bool.and_eq_true] at hes
    cases e with
    | rx b =>
      obtain ⟨u, hu, hrest⟩ := deliverAll_cons_next (es := rxEvents (rxBytesOf es)) hrun
      obtain ⟨hs, hstep⟩ := deliver_rx_eq_next.mp hu
      obtain ⟨c₁, hstep₁, hticks, htimer⟩ := hstep.withCount c
      have hcount₁ : u.armed = true → ticksIn es < max c₁.toNat 1 := fun harmed => by
        obtain rfl | ⟨hpending, rfl⟩ := htimer harmed
        · exact hperiod
        · exact hcount hpending
      obtain ⟨c', hc'⟩ := ih c₁ hes.2 hrest (hticks ▸ hperiod) hcount₁
      exact ⟨c', (deliverAll_cons_of_next
        (deliver_rx_of_rxStep (s := { s with count := c }) hs hstep₁) es).trans hc'⟩
    | tick =>
      simp only [ticksIn] at hperiod hcount
      obtain harmed | harmed := Bool.eq_false_or_eq_true s.armed
      · have hleft := hcount harmed
        have hmore : 1 < c.toNat := by omega
        have hnext : (c - 1).toNat = c.toNat - 1 := by bv_omega
        obtain ⟨c', hc'⟩ := ih (c - 1) hes.2 hrun (by omega) (fun _ => by omega)
        exact ⟨c', (deliverAll_cons_of_next
          (deliver_tick_of_more (s := { s with count := c }) harmed hmore) es).trans hc'⟩
      · obtain ⟨c', hc'⟩ := ih c hes.2 hrun (by omega) (absurd harmed <| ne_false_of_eq_true ·)
        exact ⟨c', (deliverAll_cons_of_next
          (deliver_tick_of_idle (s := { s with count := c }) harmed) es).trans hc'⟩
    | parserReset | reset | cfgTimeout | txData | txCmd | reserved => cases hes.1

/-! ### The encoder's frames -/

/-- The payload of a command is its tagged code, its tagged length and the info bytes. -/
theorem commandPayload_of_lt {code : Nat} {info : List Byte} (hcode : code < 128) (hlen : info.length < 128) :
    commandPayload code info =
      some ([tagByte (BitVec.ofNat 7 code), tagByte (BitVec.ofNat 7 info.length)] ++ info) := by
  simp only [commandPayload, tagEncode_of_lt hcode, tagEncode_of_lt hlen]

theorem rxBytesOf_append (a b : List Event) : rxBytesOf (a ++ b) = rxBytesOf a ++ rxBytesOf b := by
  induction a with
  | nil => rfl
  | cons e a ih => cases e <;> simp [rxBytesOf, ih]

/-- The encoder's checksum byte fits exactly when the frame was not corrupted. -/
theorem fold_frameChecksum_eq_zero (payload : List Byte) (corrupt : Bool) :
    fold 0xFF (payload ++ [frameChecksum payload corrupt]) = 0 ↔ corrupt = false := by
  rw [fold_append, fold_singleton_eq_zero, frameChecksum]
  cases corrupt <;> simp

/-- The tagged byte of an encodable code is not the sentinel (30_encoding.md R76). -/
theorem tagByte_ne_sentinel {v : Value} (hv : v.toNat ≤ Config.maxCodeEncodable) : tagByte v ≠ 0xFF := by
  revert v; decide

/-- Ticks around the sentinel that opens a frame do nothing. -/
theorem deliverAll_open {es : List Event} {s : State} (hst : s.st = .data) (hs : s.faulted = false)
    (harmed : s.armed = false) (hes : es.all isRxOrTick = true) (hbytes : rxBytesOf es = [0xFF]) :
    deliverAll es s = .next (s.goto .escaping) := by
  obtain ⟨es', hrun, hes', hbytes'⟩ := deliverAll_skip_ticks harmed hes hbytes (deliver_sentinel hs hst)
  exact hrun.trans (deliverAll_of_no_bytes harmed hes' hbytes')

/-- Settles O56: the sentinel opens the frame, its bytes without the ticks are an intact frame, and the ticks, too few for an
expiry, change nothing but `count`. -/
theorem commandRoundTrip : Obligations.CommandRoundTrip := by
  intro s code info payload corrupt before during hst hs harmed hwf hcode hlen hpayload hbefore hduring
    hopen hframe hticks
  cases (commandPayload_of_lt (by omega) (by omega)).symm.trans hpayload
  refine ⟨by rw [rxBytesOf_append, hopen, hframe, encodeCommand, List.append_assoc], ?_⟩
  have hcodeNat : (BitVec.ofNat 7 code).toNat = code := Nat.mod_eq_of_lt (by omega)
  have hlenNat : (BitVec.ofNat 7 info.length).toNat = info.length := Nat.mod_eq_of_lt (by omega)
  obtain ⟨t, hrun, htst, htarmed, htfaulted, htout⟩ := deliverAll_frame (s := s.goto .escaping)
    (c := tagByte (BitVec.ofNat 7 code)) (n := tagByte (BitVec.ofNat 7 info.length)) (info := info)
    hs rfl hwf (tagByte_ne_sentinel (hcodeNat.trans_le hcode)) (odd_of_tagBit (tagBit_tagByte _))
    (by rw [tagByte_toNat, hlenNat]) (frameChecksum _ corrupt)
  rw [← hframe] at hrun
  obtain ⟨c', hduringRun⟩ := deliverAll_with_ticks (s := s.goto .escaping) s.count hduring hrun hticks
    (absurd harmed <| ne_false_of_eq_true ·)
  refine ⟨{ t with count := c' }, ?_, htst, htarmed, htfaulted, ?_⟩
  · exact (deliverAll_append (deliverAll_open hst hs harmed hbefore hopen) during).trans hduringRun
  · refine htout.trans ?_
    rw [if_congr (fold_frameChecksum_eq_zero _ corrupt) rfl rfl, tagValue_tagByte]
    cases corrupt <;> rfl

/-! ### Frames that the receiver does not take as commands -/

/-- A one-byte payload as a code byte. -/
theorem deliverAll_sentinel_code {s : State} {k : Byte} (hst : s.st = .data) (hs : s.faulted = false)
    (hk : k ≠ 0xFF) (hodd : tagBit k = true) (es : List Event) :
    deliverAll (.rx 0xFF :: .rx k :: es) s = deliverAll es ((s.goto .escaping).arm.takeCode k) := by
  rw [deliverAll_cons_of_next (deliver_sentinel hs hst)]
  exact deliverAll_cons_of_next (deliver_rx_of_rxStep (s := s.goto .escaping) hs (.escCode rfl hk hodd)) es

/-- The checksum of an odd byte alone is even: it fails as a length byte. -/
theorem tagBit_frameChecksum_singleton {k : Byte} (hodd : tagBit k = true) :
    tagBit (k ^^^ 0xFF) = false := by
  revert k; decide

/-- The only length byte that declares no info bytes. -/
theorem tagValue_eq_zero {k : Byte} (hodd : tagBit k = true) : tagValue k = 0 ↔ k = 0x01 := by
  revert k; decide

/-- Settles O58: the empty payload's checksum is the sentinel, or 0x00 when corrupted; a one-byte payload's checksum is even, or
the byte itself when corrupted; and code 127 is encoded as the sentinel. -/
theorem shortAndUnencodableFrames : Obligations.ShortAndUnencodableFrames := by
  intro s hst hs
  have hliteral : deliverAll (rxEvents [0xFF, 0xFF]) s = .next (s.emit (.data 0xFF)) :=
    (deliverAll_cons_of_next (deliver_sentinel hs hst) _).trans
      (deliverAll_singleton (deliver_literal hs hst))
  refine ⟨hliteral, ?_, fun k hk hodd => ⟨?_, ?_⟩, fun rest corrupt => ⟨_, rfl, hliteral⟩⟩
  · have hzero : deliver (.rx 0x00) (s.goto .escaping) = .next ((s.goto .escaping).raiseViolation .code 0x00) :=
      deliver_rx_of_rxStep hs (.escViolation rfl rfl)
    exact ⟨_, (deliverAll_cons_of_next (deliver_sentinel hs hst) _).trans (deliverAll_singleton hzero),
      rfl, rfl⟩
  · have hchk : encodeCommand [k] false = [0xFF, k, k ^^^ 0xFF] := by
      simp [encodeCommand, frameChecksum, BitVec.xor_comm]
    rw [hchk]
    have hbad := deliver_rx_of_rxStep (s := (s.goto .escaping).arm.takeCode k) hs
      (.lenViolation rfl (tagBit_frameChecksum_singleton (tagBit_of_odd hodd)))
    exact ⟨_, (deliverAll_sentinel_code hst hs hk (tagBit_of_odd hodd) _).trans (deliverAll_singleton hbad),
      rfl, rfl⟩
  · have hchk : encodeCommand [k] true = [0xFF, k, k] := by
      simp [encodeCommand, frameChecksum, BitVec.xor_comm]
    rw [hchk]
    have hlength := deliver_rx_of_rxStep (s := (s.goto .escaping).arm.takeCode k) hs
      (.len rfl (tagBit_of_odd hodd))
    refine ⟨_, (deliverAll_sentinel_code hst hs hk (tagBit_of_odd hodd) _).trans
      (deliverAll_singleton hlength), hs, rfl, rfl, rfl, ?_⟩
    exact if_congr (tagValue_eq_zero (tagBit_of_odd hodd)) rfl rfl

end Sys2Proof.Machine
end

section
/-! PROOF. What a frame left behind is never observed (10_state.md R37): a simulation between two runs whose frame registers agree
only where the frame in progress has written them. -/

namespace Sys2Proof.Machine

/-- The registers that a frame writes and leaves behind (10_state.md R37). -/
structure FrameRegs where
  remaining : Value
  chk : Byte
  cmdCode : Value
  infoLen : Value
  info : Memory

/-- A state with other frame registers. -/
def State.withFrame (f : FrameRegs) (s : State) : State :=
  { s with
    remaining := f.remaining, chk := f.chk, cmdCode := f.cmdCode, infoLen := f.infoLen, info := f.info }

/-- Frame registers that agree with those of the state as far as the frame in progress has written them: nothing outside a frame,
all but `remaining` and the cells beyond `info_len` from the code byte on, `remaining` too from the length byte on. -/
structure Agrees (s : State) (f : FrameRegs) : Prop where
  wf : Memory.wf s.info = true
  wf' : Memory.wf f.info = true
  cmdCode : s.st.inFrame = true → f.cmdCode = s.cmdCode
  chk : s.st.inFrame = true → f.chk = s.chk
  infoLen : s.st.inFrame = true → f.infoLen = s.infoLen
  infoList : s.st.inFrame = true → (s.withFrame f).infoList = s.infoList
  remaining : s.st = .commandInfo ∨ s.st = .commandChecksum → f.remaining = s.remaining

/-- Outside a frame any registers with a canonical buffer agree. -/
theorem Agrees.of_not_inFrame {s : State} {f : FrameRegs} (hwf : Memory.wf s.info = true)
    (hwf' : Memory.wf f.info = true) (hst : s.st.inFrame = false) : Agrees s f where
  wf := hwf
  wf' := hwf'
  cmdCode h := absurd h (ne_true_of_eq_false hst)
  chk h := absurd h (ne_true_of_eq_false hst)
  infoLen h := absurd h (ne_true_of_eq_false hst)
  infoList h := absurd h (ne_true_of_eq_false hst)
  remaining h := by obtain h | h := h <;> rw [h] at hst <;> cases hst

/-- The registers after a code byte. -/
def FrameRegs.takeCode (b : Byte) (f : FrameRegs) : FrameRegs :=
  { f with cmdCode := tagValue b, infoLen := 0, chk := fold Config.seed [b] }

/-- The registers after a length byte. -/
def FrameRegs.takeLength (b : Byte) (f : FrameRegs) : FrameRegs :=
  { f with remaining := tagValue b, chk := f.chk ^^^ b }

/-- The registers after an info byte. -/
def FrameRegs.takeInfo (b : Byte) (f : FrameRegs) : FrameRegs where
  remaining := decRemaining f.remaining
  chk := f.chk ^^^ b
  cmdCode := f.cmdCode
  infoLen := f.infoLen + 1
  info := Memory.write f.info f.infoLen.toNat b

/-- The registers after a reset. -/
def FrameRegs.reset : FrameRegs where
  remaining := 0
  chk := 0xFF
  cmdCode := 0
  infoLen := 0
  info := []

/-- The code byte writes all that is compared in `CommandLength`, in both runs alike. -/
theorem Agrees.takeCode {s : State} {f : FrameRegs} (h : Agrees s f) (b : Byte) :
    Agrees (s.takeCode b) (f.takeCode b) where
  wf := h.wf
  wf' := h.wf'
  cmdCode _ := rfl
  chk _ := rfl
  infoLen _ := rfl
  infoList _ := rfl
  remaining := nofun

/-- The length byte writes `remaining` alike in both runs. -/
theorem Agrees.takeLength {s : State} {f : FrameRegs} (h : Agrees s f) (hst : s.st = .commandLength)
    (b : Byte) : Agrees (s.takeLength b) (f.takeLength b) := by
  have hframe : s.st.inFrame = true := by rw [hst]; rfl
  exact
    { wf := h.wf
      wf' := h.wf'
      cmdCode := fun _ => h.cmdCode hframe
      chk := fun _ => congrArg (· ^^^ b) (h.chk hframe)
      infoLen := fun _ => h.infoLen hframe
      infoList := fun _ => h.infoList hframe
      remaining := fun _ => rfl }

/-- An info byte does the same in both runs: `remaining`, which chooses the next state, is compared. -/
theorem Agrees.withFrame_takeInfo {s : State} {f : FrameRegs} (h : Agrees s f) (hst : s.st = .commandInfo)
    (b : Byte) : (s.withFrame f).takeInfo b = (s.takeInfo b).withFrame (f.takeInfo b) := by
  have hrem := h.remaining (.inl hst)
  simp [State.takeInfo, State.withFrame, FrameRegs.takeInfo, hrem]

/-- An info byte is appended to both lists. -/
theorem Agrees.takeInfo {s : State} {f : FrameRegs} (h : Agrees s f) (hst : s.st = .commandInfo)
    (hlen : s.infoLen.toNat < Config.infoCap) (b : Byte) : Agrees (s.takeInfo b) (f.takeInfo b) := by
  have hframe : s.st.inFrame = true := by rw [hst]; rfl
  have hlen' : f.infoLen.toNat < Config.infoCap := by rwa [h.infoLen hframe]
  exact
    { wf := Memory.wf_write b h.wf hlen
      wf' := Memory.wf_write b h.wf' hlen'
      cmdCode := fun _ => h.cmdCode hframe
      chk := fun _ => congrArg (· ^^^ b) (h.chk hframe)
      infoLen := fun _ => congrArg (· + 1) (h.infoLen hframe)
      infoList := fun _ => by
        rw [← h.withFrame_takeInfo hst, infoList_takeInfo (s := s.withFrame f) h.wf' hlen',
          infoList_takeInfo h.wf hlen, h.infoList hframe]
      remaining := fun _ => congrArg decRemaining (h.remaining (.inl hst)) }

/-- A byte does the same in both runs, and the registers agree after it. -/
theorem RxStep.withFrame {s t : State} {f : FrameRegs} {b : Byte} (h : RxStep s b t) (hf : Agrees s f) :
    ∃ f', RxStep (s.withFrame f) b (t.withFrame f') ∧ Agrees t f' := by
  cases h with
  | dataEsc hst hb => exact ⟨f, .dataEsc hst hb, .of_not_inFrame hf.wf hf.wf' rfl⟩
  | dataByte hst hb => exact ⟨f, .dataByte hst hb, { hf with }⟩
  | escLiteral hst hb => exact ⟨f, .escLiteral hst hb, .of_not_inFrame hf.wf hf.wf' rfl⟩
  | escCode hst hb htag =>
    have harm : Agrees s.arm f := { hf with }
    exact ⟨f.takeCode b, .escCode (s := s.withFrame f) hst hb htag, harm.takeCode b⟩
  | escViolation hst htag => exact ⟨f, .escViolation hst htag, { hf with }⟩
  | code hst htag => exact ⟨f.takeCode b, .code (s := s.withFrame f) hst htag, hf.takeCode b⟩
  | codeViolation hst htag => exact ⟨f, .codeViolation hst htag, { hf with }⟩
  | len hst htag => exact ⟨f.takeLength b, .len (s := s.withFrame f) hst htag, hf.takeLength hst b⟩
  | lenViolation hst htag => exact ⟨f, .lenViolation hst htag, { hf with }⟩
  | info hst hlen =>
    have hlen' : f.infoLen.toNat < Config.infoCap := by rwa [hf.infoLen (by rw [hst]; rfl)]
    exact ⟨_, hf.withFrame_takeInfo hst b ▸ .info hst hlen', hf.takeInfo hst hlen b⟩
  | chkMatch hst hb =>
    have hframe : s.st.inFrame = true := by rw [hst]; rfl
    refine ⟨f, ?_, .of_not_inFrame hf.wf hf.wf' rfl⟩
    rw [← hf.cmdCode hframe, ← hf.infoList hframe]
    exact .chkMatch hst (hb.trans (hf.chk hframe).symm)
  | chkMismatch hst hb =>
    have hframe : s.st.inFrame = true := by rw [hst]; rfl
    refine ⟨f, ?_, .of_not_inFrame hf.wf hf.wf' rfl⟩
    rw [← hf.cmdCode hframe, ← hf.infoList hframe, ← hf.infoLen hframe]
    exact .chkMismatch hst fun h => hb (h.trans (hf.chk hframe))

/-- Every event does the same in both runs, and the registers agree after it. -/
theorem deliver_withFrame {e : Event} {s t : State} {f : FrameRegs} (h : deliver e s = .next t)
    (hf : Agrees s f) : ∃ f', deliver e (s.withFrame f) = .next (t.withFrame f') ∧ Agrees t f' := by
  cases e with
  | rx b =>
    obtain ⟨hs, hstep⟩ := deliver_rx_eq_next.mp h
    obtain ⟨f', hstep', hf'⟩ := hstep.withFrame hf
    exact ⟨f', deliver_rx_of_rxStep hs hstep', hf'⟩
  | tick =>
    cases effect_of_exec (i := .tick) h with
    | tickIdle harmed => exact ⟨f, exec_tick_of_idle (s := s.withFrame f) harmed, hf⟩
    | tickExpires harmed hcount =>
      exact ⟨f, exec_tick_of_last (s := s.withFrame f) harmed hcount, .of_not_inFrame hf.wf hf.wf' rfl⟩
    | tickCounts harmed hcount =>
      exact ⟨f, exec_tick_of_more (s := s.withFrame f) harmed hcount, { hf with }⟩
  | parserReset | reset => cases h; exact ⟨.reset, rfl, .of_not_inFrame rfl rfl rfl⟩
  | cfgTimeout | txData | txCmd => cases h; exact ⟨f, rfl, { hf with }⟩
  | reserved k => cases (deliver_reserved k s).symm.trans h

/-- So does every sequence of events. -/
theorem deliverAll_withFrame {es : List Event} {s t : State} {f : FrameRegs}
    (h : deliverAll es s = .next t) (hf : Agrees s f) :
    ∃ f', deliverAll es (s.withFrame f) = .next (t.withFrame f') := by
  induction es generalizing s f with
  | nil => cases h; exact ⟨f, rfl⟩
  | cons e es ih =>
    obtain ⟨u, hu, hes⟩ := deliverAll_cons_next h
    obtain ⟨f₁, hu', hf₁⟩ := deliver_withFrame hu hf
    obtain ⟨f', hes'⟩ := ih hes hf₁
    exact ⟨f', (deliverAll_cons_of_next hu' es).trans hes'⟩

/-- Settles O59: the two runs end in states that differ in frame registers at most, which no output and no view shows. -/
theorem staleRegistersAreNeverObserved : Obligations.StaleRegistersAreNeverObserved := by
  intro s remaining chk cmdCode infoLen info es t hst hwf hwf' h
  have hframe : s.st.inFrame = false := by obtain hst | hst := hst <;> rw [hst] <;> rfl
  obtain ⟨f', hrun⟩ := deliverAll_withFrame (f := ⟨remaining, chk, cmdCode, infoLen, info⟩) h
    (.of_not_inFrame hwf hwf' hframe)
  exact ⟨t.withFrame f', hrun, rfl, rfl, rfl, rfl, rfl⟩

end Sys2Proof.Machine
end
